-- ==== Sys2Proof/Word.lean ====
section
/-! DEFINITION. The word types of the block (spec 00_scope.md R8, R11): bytes of the host's command
stream and of the bus memory, the 32-bit register and bus word, and the 24-bit packed colour. -/

namespace Sys2Proof

/-- A u8: one byte of a command, of a response or of bus memory, and one waveform element (R98). -/
abbrev Byte := BitVec 8

/-- A u32: a peripheral register, a FIFO word, a bus address, a control-block word (R8 REG_WIDTH). -/
abbrev Word := BitVec 32

/-- A u24: one packed colour of the framebuffer, in wire order (R32, R97). -/
abbrev Color := BitVec 24

end Sys2Proof
end

