-- ==== Sys2Proof/Config.lean ====
section
/-! DEFINITION. What an implementation fixes and what the spec leaves free.

* `Config` is the record of the parameters of 00_scope.md R9, which "are taken by the model as
  arguments"; a state carries the one it runs under (`State.cfg`) and no step ever changes it.
* `Agent` names the agents of R14; `Answer` is one answer of PLATFORM (R170) and `HostAct` one act of HOST.
* `Config.freeAgent`, `Config.freeAnswer` and `Config.freeHostAct` are the free values: which agent moves next, what
  PLATFORM answers and what HOST does, where nothing in the state says so. They have no body, so no proof can use a
  value of them.

The fixed constants of R8 stand here too. -/

namespace Sys2Proof

/-- BITS_PER_LED (R8). -/
def bitsPerLed : Nat := 24
/-- T_CYCLE_NS (R8). -/
def tCycleNs : Nat := 1250
/-- T0H_NS (R8). -/
def t0hNs : Nat := 400
/-- T1H_NS (R8). -/
def t1hNs : Nat := 800
/-- TOL_NS (R8). -/
def tolNs : Nat := 150
/-- Bytes of the DMA control block: CB_WORDS (8) words of 4 bytes (R8, R68). -/
def cbBytes : Nat := 32

/-- The two orders in which a strip takes its colour channels (R9 WIRE_ORDER). -/
inductive WireOrder where
  | grb
  | rgb
deriving DecidableEq, Repr, Inhabited

/-- A PWM channel: "2, numbered 0 and 1" (R8). -/
inductive Channel where
  | zero
  | one
deriving DecidableEq, Repr, Inhabited

/-- The five peripheral blocks (R8, R33). -/
inductive Block where
  | gpio
  | cm
  | pwm
  | timer
  | dma
deriving DecidableEq, Repr, Inhabited

/-- One entry of PIN_MAP (R9, R34): a GPIO pin, the PWM channel that owns it, and the function-select
code of its PWM alternate function. -/
structure PinEntry where
  pin  : Nat
  ch   : Channel
  fsel : Nat
deriving DecidableEq, Repr, Inhabited

/-- Where a field lies in its register: bits `lo + width - 1` down to `lo` (R11). -/
structure BitField where
  lo    : Nat
  width : Nat
deriving DecidableEq, Repr, Inhabited

/-- Where the fields of one channel's group lie in CTL, one bit each (R33, R36). -/
structure CtlGroup where
  pwen : Nat
  mode : Nat
  rptl : Nat
  sbit : Nat
  pola : Nat
  usef : Nat
  msen : Nat
deriving DecidableEq, Repr, Inhabited

/-- Where the function-select field of a pin lies: the offset of GPFSEL(pin) and the bits of FSEL(pin) in it
(R33, R34). -/
structure FselPlace where
  pin    : Nat
  offset : Nat
  bits   : BitField
deriving DecidableEq, Repr, Inhabited

/-- REG_LAYOUT: "the byte offset of every register and the bit position of every field named in" R33 (R9),
every block's offset from the peripheral base (R73), the clock-manager password (R35), and the fields of the DMA's
TI word (R100). RNG, DAT, FIF1, CLO and CONBLK_AD are whole registers, without fields. -/
structure RegLayout where
  /-- bytes in one block's register page (R33: "a fixed-size page of 32-bit hardware registers") -/
  pageBytes : Nat
  -- the five blocks' offsets from the peripheral base (R73)
  gpioBlock : Nat
  cmBlock : Nat
  pwmBlock : Nat
  timerBlock : Nat
  dmaBlock : Nat
  /-- GPFSEL(pin) and FSEL(pin) for each pin that has them -/
  fselPlaces : List FselPlace
  gpset : Nat
  gpclr : Nat
  -- clock manager
  cmCtl : Nat
  cmDiv : Nat
  /-- the clock-manager password constant (R35) -/
  cmPasswd : Nat
  cmCtlPasswd : BitField
  cmDivPasswd : BitField
  cmSrc : BitField
  cmEnab : BitField
  cmBusy : BitField
  cmDivi : BitField
  cmDivf : BitField
  -- PWM
  pwmCtl : Nat
  pwmSta : Nat
  pwmDmac : Nat
  pwmRng0 : Nat
  pwmRng1 : Nat
  pwmDat0 : Nat
  pwmDat1 : Nat
  pwmFif1 : Nat
  ctl0 : CtlGroup
  ctl1 : CtlGroup
  staEmpt : BitField
  dmacEnab : BitField
  dmacDreq : BitField
  dmacPanic : BitField
  -- system timer
  timerClo : Nat
  -- DMA: one group of registers for each channel, `dmaStride` bytes apart
  dmaStride : Nat
  dmaCs : Nat
  dmaConblk : Nat
  dmaDebug : Nat
  csActive : BitField
  csPriority : BitField
  debugErr : BitField
  -- the control block's TI word (R100)
  tiNoWideBursts : Nat
  tiWaitResp : Nat
  tiDestInc : Nat
  tiSrcInc : Nat
  tiDestDreq : Nat
  tiPermap : BitField
  /-- the PWM's DMA request number, the value of PERMAP (R100) -/
  permapPwm : Nat
deriving DecidableEq, Repr, Inhabited

/-- The parameters of R9, one field each. `clkDiv = none` is AUTO. -/
structure Config where
  wireOrder : WireOrder
  maxLeds : Nat
  fSrcHz : Nat
  clkSrc : Nat
  clkDiv : Option Nat
  divMax : Nat
  tResetNs : Nat
  settleUs : Nat
  busyTimeoutUs : Nat
  pinMap : List PinEntry
  fifoDepth : Nat
  dreqThreshold : Nat
  panicThreshold : Nat
  dmaChannel : Nat
  dmaPriority : Nat
  pageSize : Nat
  periphBasePhys : Word
  periphBaseBus : Word
  layout : RegLayout
  busPhysMask : Word
  allocFlags : Nat
deriving DecidableEq, Repr, Inhabited

/-- The agents of R14. -/
inductive Agent where
  | seq
  | dma
  | pwm
  | clk
  | timer
  | host
  | platform
deriving DecidableEq, Repr, Inhabited

/-- One answer of PLATFORM to a request (R170): success or failure, with the number a success
carries where the rule names one (a handle, a bus address, a virtual address). -/
structure Answer where
  ok    : Bool
  value : Nat
deriving DecidableEq, Repr, Inhabited

/-- One act of HOST (R14): it "issues commands one at a time, and may raise the termination request". -/
inductive HostAct where
  /-- hand over these command bytes (R210) -/
  | command (bytes : List Byte)
  /-- raise the termination request (R29) -/
  | terminate
deriving DecidableEq, Repr, Inhabited

/-- FREE VALUE (log 2): the agent that moves at draw `n`, where the schedule in the state is spent.
The spec orders the agents' steps in no way (R144, R336). -/
opaque Config.freeAgent : Nat → Agent

/-- FREE VALUE (log 3): what PLATFORM answers at draw `n`, where the answers in the state are spent
(R170, 93 U5: "any value (success or failure)"). -/
opaque Config.freeAnswer : Nat → Answer

/-- FREE VALUE (log 1): what HOST does at draw `n`, where its acts in the state are spent (R14, R29, R210). -/
opaque Config.freeHostAct : Nat → HostAct

/-- The register layout of the example of 95_test_vectors.md §0 (PRESUMED, log 4: the numbers are those
93_implementation_defined.md GK1 cites for one family, "not in source"). -/
def RegLayout.example1 : RegLayout where
  pageBytes := 4096
  gpioBlock := 0x200000
  cmBlock := 0x101000
  pwmBlock := 0x20C000
  timerBlock := 0x3000
  dmaBlock := 0x7000
  fselPlaces := (List.range 54).map (fun pin =>
    { pin := pin, offset := 4 * (pin / 10), bits := { lo := 3 * (pin % 10), width := 3 } })
  gpset := 0x1C
  gpclr := 0x28
  cmCtl := 0xA0
  cmDiv := 0xA4
  cmPasswd := 0x5A
  cmCtlPasswd := { lo := 24, width := 8 }
  cmDivPasswd := { lo := 24, width := 8 }
  cmSrc := { lo := 0, width := 4 }
  cmEnab := { lo := 4, width := 1 }
  cmBusy := { lo := 7, width := 1 }
  cmDivi := { lo := 12, width := 12 }
  cmDivf := { lo := 0, width := 12 }
  pwmCtl := 0x00
  pwmSta := 0x04
  pwmDmac := 0x08
  pwmRng0 := 0x10
  pwmRng1 := 0x20
  pwmDat0 := 0x14
  pwmDat1 := 0x24
  pwmFif1 := 0x18
  ctl0 := { pwen := 0, mode := 1, rptl := 2, sbit := 3, pola := 4, usef := 5, msen := 7 }
  ctl1 := { pwen := 8, mode := 9, rptl := 10, sbit := 11, pola := 12, usef := 13, msen := 15 }
  staEmpt := { lo := 1, width := 1 }
  dmacEnab := { lo := 31, width := 1 }
  dmacDreq := { lo := 0, width := 8 }
  dmacPanic := { lo := 8, width := 8 }
  timerClo := 0x04
  dmaStride := 0x100
  dmaCs := 0x00
  dmaConblk := 0x04
  dmaDebug := 0x20
  csActive := { lo := 0, width := 1 }
  csPriority := { lo := 16, width := 4 }
  debugErr := { lo := 0, width := 3 }
  tiNoWideBursts := 26
  tiWaitResp := 3
  tiDestInc := 4
  tiSrcInc := 8
  tiDestDreq := 6
  tiPermap := { lo := 16, width := 5 }
  permapPwm := 5

/-- The example configuration EX1 of 95_test_vectors.md §0 (PRESUMED, log 4). It is the configuration
that `State.reset` names; every statement is made for every configuration. -/
def Config.ex1 : Config where
  wireOrder := .grb
  maxLeds := 1024
  fSrcHz := 19200000
  clkSrc := 1
  clkDiv := none
  divMax := 4095
  tResetNs := 50000
  settleUs := 110
  busyTimeoutUs := 100
  pinMap := [{ pin := 18, ch := .zero, fsel := 2 }]
  fifoDepth := 8
  dreqThreshold := 4
  panicThreshold := 2
  dmaChannel := 5
  dmaPriority := 8
  pageSize := 4096
  periphBasePhys := 0x20000000
  periphBaseBus := 0x7E000000
  layout := RegLayout.example1
  busPhysMask := 0x3FFFFFFF
  allocFlags := 4

end Sys2Proof
end

