-- ==== Sys2Proof/Syntax.lean ====
section
/-! DEFINITION. The syntax of the host commands: one constructor per row of spec/opcode_table.json
(30_encoding.md R92). Operands are the mathematical integers the s32 fields stand for (R95). -/

namespace Sys2Proof

/-- The eight host commands (R92). -/
inductive Instr where
  /-- SETUP, opcode 0x01, format F2 (R212) -/
  | setup (pin ledCount : Int)
  /-- SET_COLOR, opcode 0x02, format F4 (R216) -/
  | setColor (index r g b : Int)
  /-- SET_COLOR_HSB, opcode 0x03, format F4 (R218) -/
  | setColorHsb (index hue sat value : Int)
  /-- SEND, opcode 0x04, format F0 (R221) -/
  | send
  /-- CLEAR_ALL, opcode 0x05, format F0 (R224) -/
  | clearAll
  /-- CLEANUP, opcode 0x06, format F0 (R226) -/
  | cleanup
  /-- ENCODE, opcode 0x07, format F0 (R229) -/
  | encode
  /-- HSB_TO_RGB, opcode 0x08, format F3 (R252) -/
  | hsbToRgb (h s v : Int)
deriving DecidableEq, Repr

/-- The operands of a command in the order of R92. -/
def Instr.operands : Instr → List Int
  | .setup pin ledCount => [pin, ledCount]
  | .setColor index r g b => [index, r, g, b]
  | .setColorHsb index hue sat value => [index, hue, sat, value]
  | .send => []
  | .clearAll => []
  | .cleanup => []
  | .encode => []
  | .hsbToRgb h s v => [h, s, v]

end Sys2Proof
end

