-- ==== Sys2Proof/Machine/State.lean ====
section
/-! DEFINITION. The state of the block as plain data (10_state.md), the micro-step labels of its sequencer
(R23), the outcomes a procedure's micro-step can have, the machine's faults and refusals, and power-on reset
(70_reset_and_hazards.md R310). -/

namespace Sys2Proof.Machine

/-! ## Why a step can stop -/

/-- A stop of the machine. None is a status of the spec: each says that the machine was asked for something
no rule gives a meaning to. All are SAFE (log 8): the model stops where a claim could otherwise be proved. -/
inductive Fault where
  /-- raised by a register access of the sequencer while `s.mapped = false`; R62: "an access is possible
  only while `s.mapped = true`". Safe. -/
  | registersUnmapped
  /-- raised by an access to the bus-memory region while none exists (R72). Safe. -/
  | noRegion
  /-- raised by an access, of the sequencer or of the DMA, at an address the region does not have; R66: "An
  offset outside `[0, size)` has no address", R61: "No agent reaches any other address". Safe. -/
  | outsideRegion
  /-- raised by a read of a byte of the region that nothing has written. Safe. -/
  | unwrittenByte
  /-- raised by a write of a clock-manager register without the password; R35: "The model gives no
  meaning to such a write; the block never makes one". Safe. -/
  | clockPassword
deriving DecidableEq, Repr

/-- Why a step gives no meaning. -/
inductive Refusal where
  /-- an instruction that has no meaning yet: raised by no arm of this model. Safe. -/
  | notModelled (mnemonic : String)
  /-- raised by `step` in a configuration that breaks R10 or R70 (93 U13: "refuse the model
  configuration"). Safe. -/
  | badConfiguration
  /-- raised by `step` where the host's bytes are shorter than their opcode's format: R93 "a transport
  refusal, not a block status" (93 U14). Safe. -/
  | transport
  /-- raised by `exec` of any command while another is in progress: HOST hands a command over "only while
  `s.pc = IDLE`" (R210). Safe. -/
  | commandInProgress
deriving DecidableEq, Repr

/-- The model faults of R290, recorded in `s.fault`; they do not stop the machine. MARK_EXCEEDS_RANGE is
not among them: the model takes R142's saturation instead (log 11). -/
inductive ModelFault where
  /-- an unaligned or out-of-block register access (R63) -/
  | regOutOfBlock
  /-- a region access that is not a 32-bit word access (R71) -/
  | mixedWidth
  /-- a region write while the DMA runs (R75) -/
  | dmaRace
  /-- the DMA loads a control block other than TRANSMIT's (R185) -/
  | unsupportedCb
deriving DecidableEq, Repr

/-! ## The response -/

/-- The statuses of R277. -/
inductive Status where
  | ok
  | hardwareMapError
  | allocationError
  | configurationError
  | capacityError
  | notSetUp
  | illegalCommand
  | halted
deriving DecidableEq, Repr

/-- The details of R278. -/
inductive Detail where
  | none
  | ledCount
  | pin
  | timing
  | clockBusyTimeout
  | memDev
  | block (b : Block)
  | alreadyAllocated
  | channelOpen
  | allocate
  | lock
  | map
  | payloadTooLong
  | notReady
  | noRegion
  | unknownOpcode
  | terminated
deriving DecidableEq, Repr

/-- `s.resp` (R28). -/
structure Response where
  status  : Status
  detail  : Detail
  payload : List Byte
deriving DecidableEq, Repr

/-! ## The sequencer's micro-steps (R23) -/

/-- WAIT_IDLE (R181). -/
inductive WaitStep where
  | w1
  | w2
deriving DecidableEq, Repr

/-- TRANSMIT (R178). X3 and X4 write one word a step: `i` and `j` number the word to be written next. -/
inductive TransmitStep where
  | x1
  | x2
  | x3 (i : Nat)
  | x4 (j : Nat)
  | x5
  | x6
  | x7
deriving DecidableEq, Repr

/-- SEND (R221), with the place inside the procedure that E2, E3 or E4 calls. -/
inductive SendStep where
  | e1
  | e2 (w : WaitStep)
  | e3 (x : TransmitStep)
  | e4 (w : WaitStep)
deriving DecidableEq, Repr

/-- CLEAR_ALL (R224): the loop that blackens the framebuffer, then SEND's steps. -/
inductive ClearStep where
  | fill
  | send (e : SendStep)
deriving DecidableEq, Repr

/-- RELEASE (R188). -/
inductive ReleaseStep where
  | l1 (w : WaitStep)
  | l2
  | l3
  | l4
  | l5
deriving DecidableEq, Repr

/-- CLEANUP (R226). -/
inductive CleanupStep where
  | c1 (c : ClearStep)
  | c2 (l : ReleaseStep)
  | c3
  | c4
deriving DecidableEq, Repr

/-- MAP_OPEN (R172). `b` is the block to be mapped next. -/
inductive MapStep where
  | m1
  | m2 (b : Block)
  | m3
deriving DecidableEq, Repr

/-- CONFIGURE (R137). K4 and K7 read the timer and then poll: `t0` and `t1` are their local values, and one
step makes one register access (R71). -/
inductive ConfigureStep where
  | k1
  | k2
  | k3
  | k4
  | k4Busy (t0 : Word)
  | k4Time (t0 : Word)
  | k5
  | k6
  | k7
  | k7Wait (t1 : Word)
  | k8
  | k9
  | k10
deriving DecidableEq, Repr

/-- ALLOCATE (R171), with the values PLATFORM has answered so far. -/
inductive AllocateStep where
  | a0
  | a1
  | a2
  | a3 (handle : Nat)
  | a4 (handle : Nat) (bbase : Word)
  | a5 (handle : Nat) (bbase : Word) (vbase : Nat)
deriving DecidableEq, Repr

/-- SETUP (R212), from S3 on with the PIN_MAP entry that S2 found. -/
inductive SetupStep where
  | s1
  | s2
  | s3 (e : PinEntry)
  | s4 (e : PinEntry) (m : MapStep)
  | s5 (e : PinEntry) (k : ConfigureStep)
  | s6 (e : PinEntry) (a : AllocateStep)
  | s7 (e : PinEntry)
deriving DecidableEq, Repr

/-- `s.pc` (R23): idle, or the command in progress and its micro-step. `terminate` is the cleanup that
serves a termination request (R284). -/
inductive Pc where
  | idle
  | setup (pin ledCount : Int) (st : SetupStep)
  | send (st : SendStep)
  | clearAll (st : ClearStep)
  | cleanup (st : CleanupStep)
  | terminate (st : CleanupStep)
deriving DecidableEq, Repr

/-! ## The block's own registers -/

/-- `s.life` (R21). -/
inductive Life where
  | unconfigured
  | ready
  | halted
deriving DecidableEq, Repr

/-- `s.dmaState` (R26). -/
inductive DmaState where
  | idle
  | armed
deriving DecidableEq, Repr

/-- The bus-memory region (R25, R65). -/
structure Region where
  handle : Nat
  vbase  : Nat
  bbase  : Word
  size   : Nat
deriving DecidableEq, Repr

/-! ## The peripherals -/

/-- GPIO (R33, R34): the function-select code of each pin (a pin not listed has code 0), and the set and
clear registers, which no rule accesses. -/
structure Gpio where
  fsel  : List (Nat × Nat)
  gpset : Word
  gpclr : Word
deriving DecidableEq, Repr

/-- The clock manager's CM_PWMCTL and CM_PWMDIV (R33, R35). -/
structure ClockManager where
  src  : Nat
  enab : Bool
  busy : Bool
  divi : Nat
  divf : Nat
deriving DecidableEq, Repr

/-- MODE_c of CTL (R33). -/
inductive PwmMode where
  | pwm
  | serialiser
deriving DecidableEq, Repr

/-- What the PWM block holds for one channel: its group of CTL (R36), RNG_c and DAT_c (R37). -/
structure PwmChannel where
  pwen : Bool
  mode : PwmMode
  rptl : Bool
  sbit : Bool
  pola : Bool
  usef : Bool
  msen : Bool
  rng  : Word
  dat  : Word
deriving DecidableEq, Repr

/-- The PWM block: both channels and the DMA-configuration register DMAC (R36-R38). -/
structure Pwm where
  ch0 : PwmChannel
  ch1 : PwmChannel
  dmacEnab  : Bool
  dmacDreq  : Nat
  dmacPanic : Nat
deriving DecidableEq, Repr

/-- `dma.phase` (R43); DMA.CS.ACTIVE reads 1 exactly when it is `running`. -/
inductive Phase where
  | stopped
  | running
deriving DecidableEq, Repr

/-- The eight words of a DMA control block (R99). -/
structure ControlBlock where
  ti     : Word
  source : Word
  dest   : Word
  length : Word
  stride : Word
  next   : Word
  res6   : Word
  res7   : Word
deriving DecidableEq, Repr

/-- The DMA channel: its registers (R41) and its agent's state (R43). -/
structure DmaChannel where
  priority : Nat
  conblkAd : Word
  phase    : Phase
  cb       : ControlBlock
  next     : Nat
  err      : Word
deriving DecidableEq, Repr

/-- The clock generator (R45). -/
structure ClockGenerator where
  running : Bool
  src     : Nat
  divi    : Nat
deriving DecidableEq, Repr

/-- One cycle of the output trace (R44, R141). -/
structure Cycle where
  mark  : Word
  range : Word
deriving DecidableEq, Repr

/-- The peripheral registers (R33). SEQ never accesses GPSET, GPCLR, DAT and FIF1; the DMA writes FIF1. -/
inductive Reg where
  | gpfsel (pin : Nat)
  | gpset
  | gpclr
  | cmCtl
  | cmDiv
  | pwmCtl
  | pwmSta
  | pwmDmac
  | pwmRng (c : Channel)
  | pwmDat (c : Channel)
  | pwmFif1
  | timerClo
  | dmaCs
  | dmaConblk
  | dmaDebug
deriving DecidableEq, Repr

/-! ## PLATFORM -/

/-- A block of bus memory PLATFORM has handed out, with what was asked for (R171 A2). -/
structure Allocation where
  handle : Nat
  size   : Nat
  align  : Nat
  flags  : Nat
deriving DecidableEq, Repr

/-- A mapping of physical memory into the process (R171 A4). -/
structure Mapping where
  phys  : Word
  virt  : Nat
  size  : Nat
deriving DecidableEq, Repr

/-- What the block holds of PLATFORM (R171-R173, R188; log 10): the memory device and the mapped
register blocks, the allocator's channel, the allocation, its lock and its mapping. -/
structure Platform where
  memDevice : Bool
  blocks    : List Block
  channel   : Bool
  alloc     : Option Allocation
  locked    : Option Word
  mapping   : Option Mapping
deriving DecidableEq, Repr

/-- A request of SEQ to PLATFORM (R171 A1 to A4, R172 M1 and M2). -/
inductive Request where
  | openMemDevice
  | mapBlock (b : Block)
  | openChannel
  | allocate (size align flags : Nat)
  | lock (handle : Nat)
  | map (phys : Word) (size : Nat)
deriving DecidableEq, Repr

/-- Where a request stands (R14: PLATFORM "answers the register-window and bus-memory requests"): there is
none, SEQ has made one, or PLATFORM has answered it and SEQ has not gone on yet. -/
inductive Exchange where
  | quiet
  | asked (r : Request)
  | answered (a : Answer)
deriving DecidableEq, Repr

/-! ## The whole state -/

/-- The state of the block, its peripherals, its agents and its surroundings. -/
structure State where
  /-- the parameters (R9); no step changes them -/
  cfg : Config
  -- the record `s` (R20-R31)
  life : Life
  pin : Int
  ch : Channel
  ledCount : Nat
  pc : Pc
  div : Nat
  range : Word
  markZero : Byte
  markOne : Byte
  resetGapLength : Nat
  mapped : Bool
  region : Option Region
  capacity : Nat
  dmaState : DmaState
  stage : List Byte
  resp : Response
  termPending : Bool
  fault : Option ModelFault
  /-- the framebuffer (R32) -/
  fb : List Color
  -- the peripheral registers (R33-R41) and the agents' hidden state (R42-R45)
  gpio : Gpio
  cm : ClockManager
  pwm : Pwm
  /-- TIMER.CLO (R40) -/
  clo : Word
  dma : DmaChannel
  /-- the PWM FIFO, head first (R42) -/
  fifo : List Word
  clk : ClockGenerator
  /-- the output trace, oldest cycle first (R44) -/
  out : List Cycle
  /-- bus memory: (bus address, byte), addresses strictly rising; an address not listed holds nothing -/
  mem : List Host.Cell
  plat : Platform
  /-- SEQ's request to PLATFORM and its answer (R14, R170; log 3) -/
  exchange : Exchange
  -- the surroundings (log 1, 2, 3): inputs and free values
  /-- the command bytes HOST has ready (R210, D1) -/
  input : List Byte
  /-- FREE VALUE: which agent moves next, and after it; when spent, `Config.freeAgent` says -/
  sched : List Agent
  /-- FREE VALUE: PLATFORM's next answers; when spent, `Config.freeAnswer` says -/
  answers : List Answer
  /-- FREE VALUE: HOST's next acts; when spent, `Config.freeHostAct` says -/
  hostActs : List HostAct
  /-- how many free values have been drawn -/
  draws : Nat
deriving DecidableEq, Repr

/-! ## What one micro-step of a procedure can do -/

/-- The outcome of one micro-step of a procedure whose labels are `α`. -/
inductive Proc (α : Type) where
  /-- `s.pc` moves to a label of the procedure, or stays (R23) -/
  | goto (label : α) (s : State)
  /-- the procedure ends -/
  | done (s : State)
  /-- `raise status(detail)` (R279), after the raising rule's own undo steps -/
  | raise (status : Status) (detail : Detail) (s : State)
  /-- the machine stops -/
  | stop (f : Fault)
deriving DecidableEq, Repr

/-- What the lifecycle gate says of a command (R211). -/
inductive Gate where
  | perform
  | reply (status : Status) (detail : Detail)
deriving DecidableEq, Repr

/-- What the idle sequencer finds to do (R210, R284). -/
inductive Fetched where
  /-- a command to perform -/
  | command (i : Instr) (s : State)
  /-- something that needed no command: this is the next state -/
  | done (s : State)
  | refused (r : Refusal)
deriving DecidableEq, Repr

/-- What the DMA reads at a bus address. -/
inductive BusWord where
  | word (w : Word)
  /-- not an aligned word: R71's MIXED_WIDTH, no access performed -/
  | misaligned
deriving DecidableEq, Repr

/-- What START finds at CONBLK_AD. -/
inductive BusBlock where
  | block (cb : ControlBlock)
  | misaligned
deriving DecidableEq, Repr

/-- The timing parameters (R24), as the derivation of 41_bit_timer.md gives them. -/
structure Timing where
  div : Nat
  range : Nat
  markZero : Nat
  markOne : Nat
  resetGapLength : Nat
deriving DecidableEq, Repr

/-! ## Power-on reset -/

/-- A PWM channel at power-on (PRESUMED, log 4: RNG is 20H; the rest 0). -/
def PwmChannel.reset : PwmChannel where
  pwen := false
  mode := .pwm
  rptl := false
  sbit := false
  pola := false
  usef := false
  msen := false
  rng := 0x20
  dat := 0

/-- A control block of zeros (DESIGN CHOICE, log 5). -/
def ControlBlock.zero : ControlBlock where
  ti := 0
  source := 0
  dest := 0
  length := 0
  stride := 0
  next := 0
  res6 := 0
  res7 := 0

/-- Nothing is held of PLATFORM (R310: nothing is mapped and no region exists). -/
def Platform.nothing : Platform where
  memDevice := false
  blocks := []
  channel := false
  alloc := none
  locked := none
  mapping := none

/-- Power-on reset (R310). The values the spec states stand as it states them; the others are named in
log 4 (the peripherals' registers, CLO and the clock), log 5 (the block's own unspecified registers, the FIFO,
the loaded control block) and log 1-3 (the surroundings). -/
def State.reset : State where
  cfg := Config.ex1
  life := .unconfigured
  pin := 0
  ch := .zero
  ledCount := 0
  pc := .idle
  div := 0
  range := 0
  markZero := 0
  markOne := 0
  resetGapLength := 0
  mapped := false
  region := none
  capacity := 0
  dmaState := .idle
  stage := []
  resp := { status := .ok, detail := .none, payload := [] }
  termPending := false
  fault := none
  fb := []
  gpio := { fsel := [], gpset := 0, gpclr := 0 }
  cm := { src := 0, enab := false, busy := false, divi := 0, divf := 0 }
  pwm := { ch0 := PwmChannel.reset, ch1 := PwmChannel.reset, dmacEnab := false, dmacDreq := 7, dmacPanic := 7 }
  clo := 0
  dma := { priority := 0, conblkAd := 0, phase := .stopped, cb := ControlBlock.zero, next := 0, err := 0 }
  fifo := []
  clk := { running := false, src := 0, divi := 0 }
  out := []
  mem := []
  plat := Platform.nothing
  exchange := .quiet
  input := []
  sched := []
  answers := []
  hostActs := []
  draws := 0

end Sys2Proof.Machine
end

