-- ==== Sys2Proof/Machine/Flags.lean ====
section
/-! DEFINITION. The flags a rule reads. The block has no condition codes (10_state.md R31): its flags are
the three hardware status flags, the DMA request, and whether the PWM agent runs. -/

namespace Sys2Proof.Machine

/-- CM_PWMCTL.BUSY (R31). -/
def flagBusy (s : State) : Bool := s.cm.busy

/-- DMA.CS.ACTIVE: 1 exactly when `dma.phase = Running` (R31, R43). -/
def flagActive (s : State) : Bool := decide (s.dma.phase = .running)

/-- PWM.STA.EMPT: 1 exactly when the FIFO holds no word (R31, R39, R42). -/
def flagEmpt (s : State) : Bool := s.fifo.isEmpty

/-- What the PWM block holds for a channel. -/
def Pwm.channel (p : Pwm) : Channel → PwmChannel
  | .zero => p.ch0
  | .one => p.ch1

/-- Replace what the PWM block holds for a channel; the other channel is preserved (R36). -/
def Pwm.setChannel (p : Pwm) (c : Channel) (x : PwmChannel) : Pwm :=
  match c with
  | .zero => { p with ch0 := x }
  | .one => { p with ch1 := x }

/-- The PWM's DMA request (R38, R183): asserted exactly when DMAC.ENAB = 1 and the FIFO holds fewer words
than the threshold in DMAC.DREQ, which CONFIGURE's K9 sets to DREQ_THRESHOLD. -/
def flagDreq (s : State) : Bool := s.pwm.dmacEnab && decide (s.fifo.length < s.pwm.dmacDreq)

/-- `pwm.running` (R44): CTL.PWEN of the strip's channel is 1 and the clock generator runs. -/
def pwmRunning (s : State) : Bool := (s.pwm.channel s.ch).pwen && s.clk.running

/-- The PWM agent's cycle step is enabled (R141), and its output is mark:space, which R36 ties to MSEN_c = 1
with MODE_c = PWM (DEDUCED, log 29: R141's list does not name MODE_c). -/
def pwmEnabled (s : State) : Bool :=
  pwmRunning s && (s.pwm.channel s.ch).usef && (s.pwm.channel s.ch).msen
    && decide ((s.pwm.channel s.ch).mode = .pwm)

end Sys2Proof.Machine
end

