-- ==== Sys2Proof/Machine/Operands.lean ====
section
/-! DEFINITION. The range treatment of the operands (30_encoding.md R95, R96) and the packed colour (R97). -/

namespace Sys2Proof.Machine

/-- `clamp(v, lo, hi)` on mathematical integers (R12). -/
def clamp (v lo hi : Int) : Int := min (max v lo) hi

/-- A colour channel, a saturation or a brightness: `clamp(x, 0, 255)` (R96). -/
def clampByte (x : Int) : Int := clamp x 0 255

/-- A hue: `clamp(x, 0, 359)` (R96). -/
def clampHue (x : Int) : Int := clamp x 0 359

/-- The entry of PIN_MAP for a pin operand, if the pin is in its domain (R96, R212 S2). -/
def lookupPin (c : Config) (pin : Int) : Option PinEntry := c.pinMap.find? (fun e => (e.pin : Int) == pin)

/-- `0 ≤ ledCount ≤ MAX_LEDS` (R96, R212 S1). -/
def ledCountOk (c : Config) (n : Int) : Bool := decide (0 ≤ n) && decide (n ≤ (c.maxLeds : Int))

/-- The framebuffer entry an index operand names, if `0 ≤ index < ledCount` (R96, R216). -/
def indexOf (ledCount : Nat) (index : Int) : Option Nat :=
  if 0 ≤ index ∧ index < (ledCount : Int) then some index.toNat else none

/-- A channel value as a byte. -/
def channelByte (x : Int) : Byte := BitVec.ofInt 8 x

/-- `pack(r, g, b)`: the first-transmitted channel in bits 23:16 (R97). -/
def pack (o : WireOrder) (r g b : Int) : Color :=
  match o with
  | .grb => channelByte g ++ channelByte r ++ channelByte b
  | .rgb => channelByte r ++ channelByte g ++ channelByte b

end Sys2Proof.Machine
end

