-- ==== Sys2Proof/WellFormed.lean ====
section
/-! DEFINITION. Which terms of `Instr` are commands: every operand is an s32 (30_encoding.md R91). -/

namespace Sys2Proof

/-- A 32-bit two's-complement integer (R11 `sN`, R91). -/
def isS32 (x : Int) : Bool := decide (-(2 ^ 31) ≤ x) && decide (x < 2 ^ 31)

/-- Every operand fits its s32 field (R91). -/
def Instr.wf (i : Instr) : Bool := i.operands.all isS32

end Sys2Proof
end

