-- ==== Sys2Proof/Decode.lean ====
section
/-! DEFINITION. The byte encoding of host commands (30_encoding.md R91-R93, R95, R101): the little-endian
helpers, the decoder, the encoder, and the decoder on a word numbered as spec/opcode_table.json numbers it. -/

namespace Sys2Proof

/-- The four bytes of a u32, least significant first (R67, R91). -/
def wordBytes (w : Word) : List Byte :=
  [w.extractLsb' 0 8, w.extractLsb' 8 8, w.extractLsb' 16 8, w.extractLsb' 24 8]

/-- The u32 whose bytes, least significant first, are these (R67, R91). -/
def bytesWord (b0 b1 b2 b3 : Byte) : Word :=
  b0.setWidth 32 ||| (b1.setWidth 32 <<< 8) ||| (b2.setWidth 32 <<< 16) ||| (b3.setWidth 32 <<< 24)

/-- The bytes of an s32 operand, least significant first (R91). -/
def operandBytes (x : Int) : List Byte := wordBytes (BitVec.ofInt 32 x)

/-- Operand assembly: the mathematical integer of an s32 field (R95). -/
def operandOf (b0 b1 b2 b3 : Byte) : Int := (bytesWord b0 b1 b2 b3).toInt

/-- The opcode map (R92). -/
def opcode : Instr → Byte
  | .setup _ _ => 0x01
  | .setColor _ _ _ _ => 0x02
  | .setColorHsb _ _ _ _ => 0x03
  | .send => 0x04
  | .clearAll => 0x05
  | .cleanup => 0x06
  | .encode => 0x07
  | .hsbToRgb _ _ _ => 0x08

/-- A command as the host sends it: the opcode, then the operands (R91). -/
def encode (i : Instr) : List Byte := opcode i :: i.operands.flatMap operandBytes

/-- A command's mnemonic (R92). -/
def mnemonic : Instr → String
  | .setup _ _ => "SETUP"
  | .setColor _ _ _ _ => "SET_COLOR"
  | .setColorHsb _ _ _ _ => "SET_COLOR_HSB"
  | .send => "SEND"
  | .clearAll => "CLEAR_ALL"
  | .cleanup => "CLEANUP"
  | .encode => "ENCODE"
  | .hsbToRgb _ _ _ => "HSB_TO_RGB"

/-- A command as it is written: the mnemonic, then the operands in decimal, separated by commas (R102). -/
def assembly (i : Instr) : String :=
  match i.operands with
  | [] => mnemonic i
  | x :: xs => mnemonic i ++ " " ++ xs.foldl (fun text y => text ++ ", " ++ toString y) (toString x)

/-- How many bytes a command with this opcode has; a reserved opcode has length 1 (R92, R101). -/
def commandLength (op : Byte) : Nat :=
  match op.toNat with
  | 1 => 9
  | 2 => 17
  | 3 => 17
  | 8 => 13
  | _ => 1

/-- Split off one s32 operand. -/
def takeOperand : List Byte → Option (Int × List Byte)
  | b0 :: b1 :: b2 :: b3 :: rest => some (operandOf b0 b1 b2 b3, rest)
  | _ => none

/-- Split off `n` s32 operands, in order. -/
def takeOperands : Nat → List Byte → Option (List Int × List Byte)
  | 0, bs => some ([], bs)
  | n + 1, bs =>
    match takeOperand bs with
    | none => none
    | some (x, rest) =>
      match takeOperands n rest with
      | none => none
      | some (xs, rest') => some (x :: xs, rest')

/-- What the decoder reads from the host's byte string. -/
inductive Decoded where
  /-- nothing is there -/
  | empty
  /-- a command, and the bytes after it, which "belong to the next command" (R93) -/
  | command (i : Instr) (rest : List Byte)
  /-- a reserved opcode, of length 1 (R93, R101) -/
  | reserved (op : Byte) (rest : List Byte)
  /-- a byte string shorter than its opcode's format: not a command (R93) -/
  | short (op : Byte)
deriving DecidableEq, Repr

/-- Read the operands of a format and build the command. -/
def decodeOperands (op : Byte) (n : Nat) (build : List Int → Option Instr) (rest : List Byte) : Decoded :=
  match takeOperands n rest with
  | none => .short op
  | some (xs, rest') =>
    match build xs with
    | none => .short op
    | some i => .command i rest'

/-- The decoder: total on any byte string (R91-R93, R101). -/
def decode : List Byte → Decoded
  | [] => .empty
  | op :: rest =>
    match op.toNat with
    | 1 => decodeOperands op 2 (fun | [a0, a1] => some (.setup a0 a1) | _ => none) rest
    | 2 => decodeOperands op 4 (fun | [a0, a1, a2, a3] => some (.setColor a0 a1 a2 a3) | _ => none) rest
    | 3 => decodeOperands op 4 (fun | [a0, a1, a2, a3] => some (.setColorHsb a0 a1 a2 a3) | _ => none) rest
    | 4 => .command .send rest
    | 5 => .command .clearAll rest
    | 6 => .command .cleanup rest
    | 7 => .command .encode rest
    | 8 => decodeOperands op 3 (fun | [a0, a1, a2] => some (.hsbToRgb a0 a1 a2) | _ => none) rest
    | _ => .reserved op rest

/-- The low `n` bytes of a number, least significant first. -/
def natBytes : Nat → Nat → List Byte
  | 0, _ => []
  | n + 1, w => BitVec.ofNat 8 w :: natBytes n (w / 256)

/-- The bytes of the instruction whose first `nbits` bits are `w` and whose further bits are 0, as long as
its opcode says. -/
def tableBytes (nbits w : Nat) : List Byte :=
  let v := w % 2 ^ nbits
  natBytes (commandLength (BitVec.ofNat 8 v)) v

/-- The command the decoder reads from an instruction whose bits are `w`, numbered as
spec/opcode_table.json numbers them (bits above `nbits` are 0); `none` where it reads no command. -/
def decodeTableWord (nbits w : Nat) : Option Instr :=
  match decode (tableBytes nbits w) with
  | .command i _ => some i
  | _ => none

end Sys2Proof
end

