-- ==== Sys2Proof/Machine/Ops.lean ====
section
/-! DEFINITION. The named operations over the state: the memory's canonical form and its accesses, the
register window, PLATFORM's answers, the free draws, and the one operation by which a command ends with an
error (R279), which is this block's counterpart of taking an exception (R270, R288), beside its ordinary end. -/

namespace Sys2Proof.Machine

/-! ## Words made of fields -/

/-- A field's value at its place in a word. DESIGN CHOICE (log 31): a value wider than its field shows only its low
bits there; a bit past bit 31 is lost. -/
def placeField (f : BitField) (v : Nat) : Word := BitVec.ofNat 32 (v % 2 ^ f.width) <<< f.lo

/-- A field of one bit. -/
def oneBit (lo : Nat) : BitField := { lo := lo, width := 1 }

/-! ## Named updates of the state -/

def State.setPc (pc : Pc) (s : State) : State := { s with pc := pc }

def State.setMem (m : List Host.Cell) (s : State) : State := { s with mem := m }

/-- Write `s.resp` (R28, R94). -/
def State.respond (st : Status) (d : Detail) (payload : List Byte) (s : State) : State :=
  { s with resp := { status := st, detail := d, payload := payload } }

/-- Record a model fault; once set it is never cleared, so the first one stays (R30, R290, log 12). -/
def State.markFault (f : ModelFault) (s : State) : State :=
  { s with fault := some (s.fault.getD f) }

/-! ## Sparse tables in canonical form -/

/-- The entry of a sparse table at a key. -/
def sparseGet {β : Type} : List (Nat × β) → Nat → Option β
  | [], _ => none
  | (k, v) :: rest, a => if k = a then some v else sparseGet rest a

/-- Write an entry, keeping the keys strictly rising. -/
def sparsePut {β : Type} (a : Nat) (v : β) : List (Nat × β) → List (Nat × β)
  | [] => [(a, v)]
  | (k, w) :: rest =>
    if a < k then (a, v) :: (k, w) :: rest
    else if a = k then (a, v) :: rest
    else (k, w) :: sparsePut a v rest

/-- Remove the entry at a key. -/
def sparseErase {β : Type} (a : Nat) (m : List (Nat × β)) : List (Nat × β) := m.filter (fun e => e.1 ≠ a)

/-- The keys rise strictly from `lo` on. -/
def sparseSortedFrom {β : Type} : Nat → List (Nat × β) → Bool
  | _, [] => true
  | lo, (k, _) :: rest => decide (lo ≤ k) && sparseSortedFrom (k + 1) rest

/-- The canonical form of memory: addresses strictly rising. An address not listed holds nothing, so no
entry can equal what an unlisted address reads as. -/
def Memory.wf (m : List Host.Cell) : Bool := sparseSortedFrom 0 m

/-- The byte of bus memory at an address; `none` where nothing has been written (log 7). -/
def memByte (m : List Host.Cell) (a : Nat) : Option Byte := sparseGet m a

/-! ## The bus-memory region (R65-R71) -/

/-- The region has an address for each of the `n` bytes from offset `off` on (R66). A bus address is a u32 (R60)
that never wraps, since no rule says so (R11; log 27): past the top of the bus space there is none. -/
def Region.has (r : Region) (off n : Nat) : Bool :=
  decide (off + n ≤ r.size) && decide (r.bbase.toNat + off + n ≤ 2 ^ 32)

/-- `busAddr(off) = bbase + off`, a u32 (R66); `none` where the region has no address. -/
def busAddr (r : Region) (off : Nat) : Option Word :=
  if r.has off 1 then some (BitVec.ofNat 32 (r.bbase.toNat + off)) else none

/-- `virtAddr(off) = vbase + off` (R66). -/
def virtAddr (r : Region) (off : Nat) : Nat := r.vbase + off

/-- `physAddr(b) = b AND BUS_PHYS_MASK` (R66). -/
def physAddr (c : Config) (b : Word) : Word := b &&& c.busPhysMask

/-- Where the byte at an offset of the region lies in memory: its bus address. -/
def cellOf (r : Region) (off : Nat) : Nat := r.bbase.toNat + off

/-- Write a list of bytes at successive offsets of the region. -/
def putBytes (r : Region) : Nat → List Byte → List Host.Cell → List Host.Cell
  | _, [], m => m
  | off, b :: bs, m => putBytes r (off + 1) bs (sparsePut (cellOf r off) b m)

/-- Store a word at an offset of the region, least significant byte first (R67). -/
def putWord (r : Region) (off : Nat) (w : Word) (m : List Host.Cell) : List Host.Cell :=
  putBytes r off (wordBytes w) m

/-- The word at an offset of the region, least significant byte first (R67); `none` if a byte of it was
never written. -/
def getWord (r : Region) (off : Nat) (m : List Host.Cell) : Option Word :=
  match memByte m (cellOf r off), memByte m (cellOf r (off + 1)),
      memByte m (cellOf r (off + 2)), memByte m (cellOf r (off + 3)) with
  | some b0, some b1, some b2, some b3 => some (bytesWord b0 b1 b2 b3)
  | _, _, _, _ => none

/-- `MemWrite(off, n, v)` (R12, R67): the sequencer's write of the region through its virtual mapping. An
access that is not an aligned 32-bit word records MIXED_WIDTH (R71), one while the DMA runs DMA_RACE (R75);
neither is performed. DESIGN CHOICE (log 28), since the spec gives no order: an access that leaves the region stops
before either is recorded (R66), and one that is both records MIXED_WIDTH. -/
def memWrite (off n : Nat) (v : Word) (s : State) : Except Fault State :=
  match s.region with
  | none => .error .noRegion
  | some r =>
    if r.has off n = false then .error .outsideRegion
    else if n ≠ 4 ∨ off % 4 ≠ 0 then .ok (s.markFault .mixedWidth)
    else if s.dma.phase = .running then .ok (s.markFault .dmaRace)
    else .ok (s.setMem (putWord r off v s.mem))

/-- `MemRead(off, n)` (R12, R67): the sequencer's read of the region; `none` where MIXED_WIDTH was recorded
and no access performed. An access that leaves the region stops first (DESIGN CHOICE, log 28). No rule of the spec
uses it. -/
def memRead (off n : Nat) (s : State) : Except Fault (Option Word × State) :=
  match s.region with
  | none => .error .noRegion
  | some r =>
    if r.has off n = false then .error .outsideRegion
    else if n ≠ 4 ∨ off % 4 ≠ 0 then .ok (none, s.markFault .mixedWidth)
    else
      match getWord r off s.mem with
      | none => .error .unwrittenByte
      | some w => .ok (some w, s)

/-- The bus address of an offset of the region, for SEQ (R66, R178). -/
def regionAddr (off : Nat) (s : State) : Except Fault Word :=
  match s.region with
  | none => .error .noRegion
  | some r =>
    match busAddr r off with
    | none => .error .outsideRegion
    | some a => .ok a

/-- `BusRead(addr, 4)` (R12, R61): the DMA's read of a word by bus address. One that leaves the region stops
before a misaligned one is told (DESIGN CHOICE, log 28). -/
def busRead (addr : Nat) (s : State) : Except Fault BusWord :=
  match s.region with
  | none => .error .noRegion
  | some r =>
    let off := addr - r.bbase.toNat
    if addr < r.bbase.toNat ∨ r.has off 4 = false then .error .outsideRegion
    else if off % 4 ≠ 0 then .ok .misaligned
    else
      match getWord r off s.mem with
      | none => .error .unwrittenByte
      | some w => .ok (.word w)

/-! ## The register window (R62-R64) -/

/-- Where a pin's function-select field lies. A pin without a place has no register: its offset lies outside the
page, so that an access of it is out of its block (log 20). -/
def fselPlace (l : RegLayout) (pin : Nat) : FselPlace :=
  (l.fselPlaces.find? (fun p => p.pin == pin)).getD
    { pin := pin, offset := l.pageBytes, bits := { lo := 0, width := 0 } }

/-- The byte offset of a register inside its block's page, by REG_LAYOUT (R33, R73). -/
def regOffset (c : Config) : Reg → Nat
  | .gpfsel pin => (fselPlace c.layout pin).offset
  | .gpset => c.layout.gpset
  | .gpclr => c.layout.gpclr
  | .cmCtl => c.layout.cmCtl
  | .cmDiv => c.layout.cmDiv
  | .pwmCtl => c.layout.pwmCtl
  | .pwmSta => c.layout.pwmSta
  | .pwmDmac => c.layout.pwmDmac
  | .pwmRng .zero => c.layout.pwmRng0
  | .pwmRng .one => c.layout.pwmRng1
  | .pwmDat .zero => c.layout.pwmDat0
  | .pwmDat .one => c.layout.pwmDat1
  | .pwmFif1 => c.layout.pwmFif1
  | .timerClo => c.layout.timerClo
  | .dmaCs => c.layout.dmaStride * c.dmaChannel + c.layout.dmaCs
  | .dmaConblk => c.layout.dmaStride * c.dmaChannel + c.layout.dmaConblk
  | .dmaDebug => c.layout.dmaStride * c.dmaChannel + c.layout.dmaDebug

/-- The block a register belongs to (R33). -/
def regBlock : Reg → Block
  | .gpfsel _ => .gpio
  | .gpset => .gpio
  | .gpclr => .gpio
  | .cmCtl => .cm
  | .cmDiv => .cm
  | .pwmCtl => .pwm
  | .pwmSta => .pwm
  | .pwmDmac => .pwm
  | .pwmRng _ => .pwm
  | .pwmDat _ => .pwm
  | .pwmFif1 => .pwm
  | .timerClo => .timer
  | .dmaCs => .dma
  | .dmaConblk => .dma
  | .dmaDebug => .dma

/-- A block's offset from the peripheral base (R73). -/
def blockOffset (c : Config) : Block → Nat
  | .gpio => c.layout.gpioBlock
  | .cm => c.layout.cmBlock
  | .pwm => c.layout.pwmBlock
  | .timer => c.layout.timerBlock
  | .dma => c.layout.dmaBlock

/-- The address of a register from a peripheral base (R73): PERIPH_BASE_PHYS gives the CPU's physical address,
PERIPH_BASE_BUS the DMA's. The sum does not wrap (R11; log 27). -/
def regAddr (c : Config) (base : Word) (r : Reg) : Nat :=
  base.toNat + blockOffset c (regBlock r) + regOffset c r

/-- An access of a register from this base is at an address aligned to 4 bytes, inside its block's page and inside
the 32-bit address space (R60, R63). -/
def accessOk (c : Config) (base : Word) (r : Reg) : Bool :=
  decide (regAddr c base r % 4 = 0) && decide (regOffset c r + 4 ≤ c.layout.pageBytes)
    && decide (regAddr c base r + 4 ≤ 2 ^ 32)

/-- SEQ's access of a register is aligned and inside its block (R63). -/
def regInBlock (c : Config) (r : Reg) : Bool := accessOk c c.periphBasePhys r

/-- The DMA's write of FIF1 is aligned and inside its block (R63, R71). -/
def fifoInBlock (c : Config) : Bool := accessOk c c.periphBaseBus .pwmFif1

/-- One volatile 32-bit write of a register (R62), or a read-modify-write of it (R12), whose effect is
`eff`. An unaligned or out-of-block access records REG_OUT_OF_BLOCK and is not performed (R63). DESIGN CHOICE
(log 33): with the window not mapped the access stops before that is recorded. -/
def regWrite (r : Reg) (eff : State → State) (s : State) : Except Fault State :=
  if s.mapped then
    if regInBlock s.cfg r then .ok (eff s) else .ok (s.markFault .regOutOfBlock)
  else .error .registersUnmapped

/-- Go on with `k` after an access, or stop. -/
def Proc.after {α : Type} (x : Except Fault State) (k : State → Proc α) : Proc α :=
  match x with
  | .ok s => k s
  | .error f => .stop f

/-- One volatile 32-bit read of a register (R62), then `k` with the value read. An unaligned or
out-of-block read records REG_OUT_OF_BLOCK and is not performed (R63); having no value to go on with, the
sequencer holds at `stay`. With the window not mapped it stops first (DESIGN CHOICE, log 33). -/
def Proc.read {α β : Type} (r : Reg) (value : State → β) (stay : α) (s : State) (k : β → Proc α) : Proc α :=
  if s.mapped then
    if regInBlock s.cfg r then k (value s) else .goto stay (s.markFault .regOutOfBlock)
  else .stop .registersUnmapped

/-! ## Requests to PLATFORM -/

def State.setExchange (x : Exchange) (s : State) : State := { s with exchange := x }

/-- A request of SEQ to PLATFORM (R170): SEQ makes it, holds at `stay` until PLATFORM has answered, and goes on
with `k` and the answer. -/
def Proc.ask {α : Type} (r : Request) (stay : α) (s : State) (k : Answer → State → Proc α) : Proc α :=
  match s.exchange with
  | .quiet => .goto stay (s.setExchange (.asked r))
  | .asked _ => .goto stay s
  | .answered a => k a (s.setExchange .quiet)

/-! ## Procedures -/

/-- A step of a called procedure, seen from its caller: its labels stand inside the caller's label `wrap`,
its end goes on with `next`, and what it raises "ends the whole command that called it" (R279). -/
def Proc.call {α β : Type} (p : Proc α) (wrap : α → β) (next : State → Proc β) : Proc β :=
  match p with
  | .goto l s => .goto (wrap l) s
  | .done s => next s
  | .raise st d s => .raise st d s
  | .stop f => .stop f

/-- The same, where the caller undoes its own acquisitions before what is raised takes effect (R212, R279). -/
def Proc.callUndo {α β : Type} (p : Proc α) (wrap : α → β) (undo : State → State)
    (next : State → Proc β) : Proc β :=
  match p with
  | .goto l s => .goto (wrap l) s
  | .done s => next s
  | .raise st d s => .raise st d (undo s)
  | .stop f => .stop f

/-! ## How a command ends -/

/-- `raise X(d)` (R279): the response is written and the command ends. It is the block's one way of
reporting an error: no vector, no saved state, no mode (R270, R288). -/
def raiseError (st : Status) (d : Detail) (s : State) : State := (s.respond st d []).setPc .idle

/-- The ordinary end of a command: status OK with this payload, and the sequencer is idle again (R210).
Nothing is restored: there is no return (R289). -/
def endCommand (payload : List Byte) (s : State) : State := (s.respond .ok .none payload).setPc .idle

/-- The state after a micro-step of a command whose labels stand in `pc` as `wrap` says; `finish` is what
the command's end does. -/
def resolve {α : Type} (wrap : α → Pc) (finish : State → State) (p : Proc α) :
    Host.Outcome State Fault Refusal :=
  match p with
  | .goto l s => .next (s.setPc (wrap l))
  | .done s => .next (finish s)
  | .raise st d s => .next (raiseError st d s)
  | .stop f => .fault f

/-! ## The codes of a response (R94, R277, R278) -/

def statusCode : Status → Byte
  | .ok => 0x00
  | .hardwareMapError => 0x01
  | .allocationError => 0x02
  | .configurationError => 0x03
  | .capacityError => 0x04
  | .notSetUp => 0x05
  | .illegalCommand => 0x06
  | .halted => 0x07

def detailCode : Detail → Byte
  | .none => 0x00
  | .ledCount => 0x01
  | .pin => 0x02
  | .timing => 0x03
  | .clockBusyTimeout => 0x04
  | .memDev => 0x10
  | .block .gpio => 0x11
  | .block .cm => 0x12
  | .block .pwm => 0x13
  | .block .timer => 0x14
  | .block .dma => 0x15
  | .alreadyAllocated => 0x20
  | .channelOpen => 0x21
  | .allocate => 0x22
  | .lock => 0x23
  | .map => 0x24
  | .payloadTooLong => 0x30
  | .notReady => 0x40
  | .noRegion => 0x41
  | .unknownOpcode => 0x50
  | .terminated => 0x60

/-- The byte string in which a response is delivered to the host (R94). -/
def responseBytes (r : Response) : List Byte := statusCode r.status :: detailCode r.detail :: r.payload

/-! ## The free values: PLATFORM's answers, HOST's acts and the agents' order -/

/-- PLATFORM's answer to a request (R170): the next one in the state, or a free value. -/
def nextAnswer (s : State) : Answer × State :=
  match s.answers with
  | a :: rest => (a, { s with answers := rest })
  | [] => (Config.freeAnswer s.draws, { s with draws := s.draws + 1 })

/-- HOST's next act (R14, R29, R210): the next one in the state, or a free value. -/
def nextHostAct (s : State) : HostAct × State :=
  match s.hostActs with
  | a :: rest => (a, { s with hostActs := rest })
  | [] => (Config.freeHostAct s.draws, { s with draws := s.draws + 1 })

/-- The agent that moves next: the first of the schedule, or a free value (R14, R144, log 2). -/
def nextAgent (s : State) : Agent × State :=
  match s.sched with
  | a :: rest => (a, { s with sched := rest })
  | [] => (Config.freeAgent s.draws, { s with draws := s.draws + 1 })

end Sys2Proof.Machine
end

