-- ==== Sys2Proof/Machine/BitTimer.lean ====
section
/-! DEFINITION. The PWM bit-timer (41_bit_timer.md): the CONFIGURE procedure (R137), the effects of its
register writes on GPIO, the clock manager and the PWM block, and the PWM, CLK,
TIMER and HOST agents. -/

namespace Sys2Proof.Machine

/-! ## The effects of register writes -/

/-- Write FSEL(pin); "no other FSEL field and no other bit of the register changes" (R34). -/
def writeFsel (pin code : Nat) (s : State) : State :=
  { s with gpio := { s.gpio with
      fsel := if code = 0 then sparseErase pin s.gpio.fsel else sparsePut pin code s.gpio.fsel } }

/-- FSEL(pin); a pin not listed has code 0. -/
def readFsel (s : State) (pin : Nat) : Nat := (sparseGet s.gpio.fsel pin).getD 0

/-- A write of CM_PWMCTL with the password (R35, R45): ENAB = 1 starts the generator from SRC, divided
by the last DIVI written; ENAB = 0 begins its stop and leaves BUSY as it is. -/
def writeCmCtl (src : Nat) (enab : Bool) (s : State) : State :=
  if enab then
    { s with
      cm := { s.cm with src := src, enab := true, busy := true }
      clk := { running := true, src := src, divi := s.cm.divi } }
  else { s with cm := { s.cm with src := src, enab := false } }

/-- A write of CM_PWMDIV with the password (R35). -/
def writeCmDiv (divi divf : Nat) (s : State) : State :=
  { s with cm := { s.cm with divi := divi, divf := divf } }

/-- A clock-manager write: it goes through the register window and must carry the password (R35). Without it the
write stops before anything else is looked at (DESIGN CHOICE, log 33). -/
def cmWrite (r : Reg) (passwd : Nat) (eff : State → State) (s : State) : Except Fault State :=
  if passwd = s.cfg.layout.cmPasswd then regWrite r eff s else .error .clockPassword

/-- K2's write of the channel's group of CTL; RNG and DAT are other registers (R36, R137). -/
def writeCtlGroup (c : Channel) (s : State) : State :=
  let group := { s.pwm.channel c with
    pwen := false, mode := .pwm, rptl := false, sbit := false, pola := false, usef := true, msen := true }
  { s with pwm := s.pwm.setChannel c group }

/-- K10's write of CTL.PWEN (R137). -/
def writePwen (c : Channel) (on : Bool) (s : State) : State :=
  { s with pwm := s.pwm.setChannel c { s.pwm.channel c with pwen := on } }

/-- K8's write of RNG (R37, R137). -/
def writeRng (c : Channel) (w : Word) (s : State) : State :=
  { s with pwm := s.pwm.setChannel c { s.pwm.channel c with rng := w } }

/-- K9's write of DMAC (R38, R137). -/
def writeDmac (enab : Bool) (dreq panic : Nat) (s : State) : State :=
  { s with pwm := { s.pwm with dmacEnab := enab, dmacDreq := dreq, dmacPanic := panic } }

/-! ## CONFIGURE -/

/-- Microseconds from `t0` to `now`, "with elapsed time computed modulo 2^32" (R292). -/
def elapsed (t0 now : Word) : Nat := (now - t0).toNat

/-- One micro-step of `CONFIGURE(pin, ch)` (R137), for the PIN_MAP entry of the pin. -/
def configureStep (e : PinEntry) (k : ConfigureStep) (s : State) : Proc ConfigureStep :=
  match k with
  | .k1 => .after (regWrite (.gpfsel e.pin) (writeFsel e.pin e.fsel) s) (.goto .k2)
  | .k2 => .after (regWrite .pwmCtl (writeCtlGroup e.ch) s) (.goto .k3)
  | .k3 => .after (cmWrite .cmCtl s.cfg.layout.cmPasswd (writeCmCtl s.cfg.clkSrc false) s) (.goto .k4)
  | .k4 => .read .timerClo State.clo .k4 s (fun now => .goto (.k4Busy now) s)
  | .k4Busy t0 => .read .cmCtl flagBusy (.k4Busy t0) s (fun busy =>
      if busy then .goto (.k4Time t0) s else .goto .k5 s)
  | .k4Time t0 => .read .timerClo State.clo (.k4Time t0) s (fun now =>
      if s.cfg.busyTimeoutUs ≤ elapsed t0 now then .raise .configurationError .clockBusyTimeout s
      else .goto (.k4Busy t0) s)
  | .k5 => .after (cmWrite .cmDiv s.cfg.layout.cmPasswd (writeCmDiv s.div 0) s) (.goto .k6)
  | .k6 => .after (cmWrite .cmCtl s.cfg.layout.cmPasswd (writeCmCtl s.cfg.clkSrc true) s) (.goto .k7)
  | .k7 => .read .timerClo State.clo .k7 s (fun now => .goto (.k7Wait now) s)
  | .k7Wait t1 => .read .timerClo State.clo (.k7Wait t1) s (fun now =>
      if s.cfg.settleUs ≤ elapsed t1 now then .goto .k8 s else .goto (.k7Wait t1) s)
  | .k8 => .after (regWrite (.pwmRng e.ch) (writeRng e.ch s.range) s) (.goto .k9)
  | .k9 => .after (regWrite .pwmDmac (writeDmac true s.cfg.dreqThreshold s.cfg.panicThreshold) s) (.goto .k10)
  | .k10 => .after (regWrite .pwmCtl (writePwen e.ch true) s) .done

/-! ## The agents -/

/-- The mark of a cycle: a word above the range makes the whole cycle high (R142). -/
def cycleMark (w rng : Word) : Word := if w.toNat ≤ rng.toNat then w else rng

/-- The PWM agent's cycle step (R141): one cycle, from the FIFO's head, or low if the FIFO is empty (R143).
Where the step is not enabled nothing happens. DESIGN CHOICE (log 32): POLA, SBIT and RPTL are not read; R36 gives
only the meaning of their 0, and a cycle with one of them 1 is the same pair of mark and range. -/
def pwmStep (s : State) : State :=
  if pwmEnabled s then
    let rng := (s.pwm.channel s.ch).rng
    match s.fifo with
    | w :: rest => { s with fifo := rest, out := s.out ++ [{ mark := cycleMark w rng, range := rng }] }
    | [] => { s with out := s.out ++ [{ mark := 0, range := rng }] }
  else s

/-- The CLK agent's step (R45): after a stop write it clears BUSY, and the generator has stopped. It is
"enabled at any time after the stop write"; elsewhere nothing happens. -/
def clkStep (s : State) : State :=
  if s.cm.enab then s
  else { s with cm := { s.cm with busy := false }, clk := { s.clk with running := false } }

/-- The TIMER agent's step: one microsecond, wrapping from 2^32−1 to 0 (R40, R336). -/
def timerStep (s : State) : State := { s with clo := s.clo + 1 }

/-- HOST hands command bytes over: "one command at a time, and only while `s.pc = IDLE`" (R210), so only where
none is waiting. An act it may not do now is left out. -/
def handOver (bytes : List Byte) (s : State) : State :=
  if s.pc = .idle ∧ s.input = [] then { s with input := bytes } else s

/-- HOST's step (R14): it hands a command over, or raises the termination request, at any time (R29). -/
def hostStep (s : State) : State :=
  match nextHostAct s with
  | (.command bytes, s) => handOver bytes s
  | (.terminate, s) => { s with termPending := true }

end Sys2Proof.Machine
end

