-- ==== Sys2Proof/Machine/Color.lean ====
section
/-! DEFINITION. The colour model (44_color_model.md): HSB to RGB on mathematical integers. -/

namespace Sys2Proof.Machine

/-- A colour as three channel values. -/
abbrev Rgb := Int × Int × Int

/-- `p` of R251: `floor_div(v × (255 - s), 255)`. -/
def hsbP (s v : Int) : Int := v * (255 - s) / 255

/-- `q` of R251: `floor_div(v × (15300 - rr × s), 15300)`. -/
def hsbQ (rr s v : Int) : Int := v * (15300 - rr * s) / 15300

/-- `t` of R251: `floor_div(v × (15300 - (60 - rr) × s), 15300)`. -/
def hsbT (rr s v : Int) : Int := v * (15300 - (60 - rr) * s) / 15300

/-- `hsbToRgb(h, s, v)` on clamped inputs (R251): the six sectors. -/
def hsbToRgb (h s v : Int) : Rgb :=
  let hgroup := (h / 60) % 6
  let rr := h % 60
  let p := hsbP s v
  let q := hsbQ rr s v
  let t := hsbT rr s v
  if hgroup = 0 then (v, t, p)
  else if hgroup = 1 then (q, v, p)
  else if hgroup = 2 then (p, v, t)
  else if hgroup = 3 then (p, q, v)
  else if hgroup = 4 then (t, p, v)
  else (v, p, q)

/-- The colour of unclamped operands: the clamps of R96, then the conversion (R218, R252). -/
def hsbColor (h s v : Int) : Rgb := hsbToRgb (clampHue h) (clampByte s) (clampByte v)

/-- The payload of HSB_TO_RGB: r, g, b, one byte each (R94). -/
def rgbBytes (c : Rgb) : List Byte := [channelByte c.1, channelByte c.2.1, channelByte c.2.2]

end Sys2Proof.Machine
end

