-- ==== Sys2Proof/Machine/Timing.lean ====
section
/-! DEFINITION. The timing derivation (41_bit_timer.md R130-R135), the region's size (20_memory.md R68), the
constants of REG_LAYOUT that are words of the control block (30_encoding.md R99, R100), and the check of the
parameters (00_scope.md R10, 20_memory.md R70). All arithmetic is on unbounded naturals. -/

namespace Sys2Proof.Machine

/-- `ceil_div(a, b)` for b > 0 (R12). -/
def ceilDiv (a b : Nat) : Nat := (a + b - 1) / b

/-- `round_half_up(a, b)` for b > 0 (R12). -/
def roundHalfUp (a b : Nat) : Nat := (2 * a + b) / (2 * b)

/-- `ticks(T, d)` (R131). -/
def ticks (c : Config) (t d : Nat) : Nat := roundHalfUp (t * c.fSrcHz) (d * 10 ^ 9)

/-- `range(d)` (R131). -/
def rangeTicks (c : Config) (d : Nat) : Nat := ticks c tCycleNs d

/-- `Z(d)` (R131). -/
def zeroTicks (c : Config) (d : Nat) : Nat := ticks c t0hNs d

/-- `O(d)` (R131). -/
def oneTicks (c : Config) (d : Nat) : Nat := ticks c t1hNs d

/-- `|k × d × 10^9 − T × F_SRC_HZ| ≤ 150 × F_SRC_HZ` (R132 (b)). -/
def withinTolerance (c : Config) (k t d : Nat) : Bool :=
  decide (k * d * 10 ^ 9 ≤ t * c.fSrcHz + tolNs * c.fSrcHz)
    && decide (t * c.fSrcHz ≤ k * d * 10 ^ 9 + tolNs * c.fSrcHz)

/-- `valid(d)` (R132). -/
def validDiv (c : Config) (d : Nat) : Bool :=
  decide (1 ≤ d) && decide (d ≤ c.divMax)
    && withinTolerance c (rangeTicks c d) tCycleNs d
    && withinTolerance c (zeroTicks c d) t0hNs d
    && withinTolerance c (oneTicks c d) t1hNs d
    && decide (1 ≤ zeroTicks c d) && decide (zeroTicks c d < oneTicks c d)
    && decide (oneTicks c d ≤ rangeTicks c d)
    && decide (oneTicks c d ≤ 255)
    && decide (rangeTicks c d ≤ 2 ^ 32 - 1)

/-- The least valid divider among the `n` from `d` on (R133). -/
def leastValidFrom (c : Config) : Nat → Nat → Option Nat
  | 0, _ => none
  | n + 1, d => if validDiv c d then some d else leastValidFrom c n (d + 1)

/-- The divider: CLK_DIV if it is given and valid, the least valid one if it is AUTO (R133). -/
def chooseDiv (c : Config) : Option Nat :=
  match c.clkDiv with
  | some d => if validDiv c d then some d else none
  | none => leastValidFrom c c.divMax 1

/-- `resetGapLength` for a range and a divider (R134). -/
def gapLength (c : Config) (range div : Nat) : Nat :=
  ceilDiv (c.tResetNs * c.fSrcHz) (range * div * 10 ^ 9)

/-- The derivation (R131-R134); `none` is CONFIGURATION_ERROR(TIMING). -/
def deriveTiming (c : Config) : Option Timing :=
  match chooseDiv c with
  | none => none
  | some d => some
      { div := d
        range := rangeTicks c d
        markZero := zeroTicks c d
        markOne := oneTicks c d
        resetGapLength := gapLength c (rangeTicks c d) d }

/-- Store the derivation in the timing registers, "and nothing else" (R135). -/
def storeTiming (t : Timing) (s : State) : State :=
  { s with
    div := t.div
    range := BitVec.ofNat 32 t.range
    markZero := BitVec.ofNat 8 t.markZero
    markOne := BitVec.ofNat 8 t.markOne
    resetGapLength := t.resetGapLength }

/-- The SourceBuffer capacity in elements (R25, R174). -/
def capacityFor (ledCount gap : Nat) : Nat := ledCount * bitsPerLed + gap

/-- The size of the region for a capacity (R68, R174). -/
def regionSize (c : Config) (capacity : Nat) : Nat :=
  ceilDiv (cbBytes + 4 * capacity) c.pageSize * c.pageSize

/-- The DMA's address of the PWM FIFO register, `fifoBus`, a u32 (R73). A configuration in which it would pass
2^32 is refused (`fifoInBlock`, log 9). -/
def fifoBus (c : Config) : Word := BitVec.ofNat 32 (regAddr c c.periphBaseBus .pwmFif1)

/-- TI_VALUE (R100): the fields it names; DEST_INC and all others are 0. DESIGN CHOICE (log 31): a request number
wider than PERMAP shows its low bits, a position past bit 31 shows nothing, and fields that coincide are joined by OR. -/
def tiValue (c : Config) : Word :=
  placeField (oneBit c.layout.tiNoWideBursts) 1 ||| placeField (oneBit c.layout.tiWaitResp) 1
    ||| placeField (oneBit c.layout.tiSrcInc) 1 ||| placeField (oneBit c.layout.tiDestDreq) 1
    ||| placeField c.layout.tiPermap c.layout.permapPwm

/-- The registers CONFIGURE, WAIT_IDLE and TRANSMIT access, for the pins PIN_MAP maps and their channels (R33, R137,
R178, R182). No other register is looked at, and a pin's first entry counts (DEDUCED, log 9). -/
def accessedRegs (c : Config) : List Reg :=
  [.cmCtl, .cmDiv, .pwmCtl, .pwmSta, .pwmDmac, .timerClo, .dmaCs, .dmaConblk, .dmaDebug]
    ++ (c.pinMap.filter (fun e => decide (lookupPin c e.pin = some e))).flatMap
      (fun e => [.gpfsel e.pin, .pwmRng e.ch])

/-- Every register access that SEQ and the DMA make is aligned and in its block (R63; DEDUCED, log 9). -/
def layoutOk (c : Config) : Bool := (accessedRegs c).all (regInBlock c) && fifoInBlock c

/-- The largest element count a configuration can reach: MAX_LEDS × 24 and the reset gap its derivation
gives (R10; DEDUCED, log 9). -/
def largestCount (c : Config) : Nat :=
  capacityFor c.maxLeds (match deriveTiming c with | none => 0 | some t => t.resetGapLength)

/-- CLK_DIV is "AUTO or an integer 1..DIV_MAX" (R9). -/
def clkDivOk (c : Config) : Bool :=
  match c.clkDiv with
  | none => true
  | some d => decide (1 ≤ d) && decide (d ≤ c.divMax)

/-- The parameter constraints, checked "before any command is accepted" (R9, R10, R70). A configuration
that violates one "is refused by the model as a whole". -/
def configOk (c : Config) : Bool :=
  List.all
    [decide (1 ≤ c.fSrcHz), decide (1 ≤ c.divMax), clkDivOk c, decide (1 ≤ c.busyTimeoutUs),
      decide (1 ≤ c.pageSize), decide (c.pageSize % 32 = 0),
      decide (1 ≤ c.fifoDepth), decide (1 ≤ c.dreqThreshold), decide (c.dreqThreshold ≤ c.fifoDepth),
      decide (1 ≤ c.tResetNs), (lookupPin c 18).isSome,
      decide (4 * largestCount c < 2 ^ 32), decide (regionSize c (largestCount c) ≤ 2 ^ 32), layoutOk c] id

end Sys2Proof.Machine
end

