-- ==== Sys2Proof/Machine/DmaSequencer.lean ====
section
/-! DEFINITION. The DMA control sequencer (42_dma_sequencer.md): the platform procedures ALLOCATE, MAP_OPEN
and MAP_CLOSE, TRANSMIT, WAIT_IDLE, RELEASE, and the DMA channel agent. -/

namespace Sys2Proof.Machine

/-! ## Platform procedures -/

def State.setPlat (p : Platform) (s : State) : State := { s with plat := p }

/-- The order in which MAP_OPEN maps the blocks: GPIO, CM, PWM, TIMER, DMA (R172). -/
def nextBlock : Block → Option Block
  | .gpio => some .cm
  | .cm => some .pwm
  | .pwm => some .timer
  | .timer => some .dma
  | .dma => none

/-- Give back the register window: the blocks mapped so far and the memory device (R172, R173; log 10). -/
def dropWindow (s : State) : State := s.setPlat { s.plat with memDevice := false, blocks := [] }

/-- `MAP_CLOSE()` (R173): it unmaps every mapped block and always succeeds; "with `s.mapped = false` it does
nothing". -/
def mapClose (s : State) : State := if s.mapped then { dropWindow s with mapped := false } else s

/-- PLATFORM's step (R14, R170): it answers the request SEQ has made, with success or failure. -/
def platformStep (s : State) : State :=
  match s.exchange with
  | .asked _ =>
    let (a, s) := nextAnswer s
    s.setExchange (.answered a)
  | .quiet => s
  | .answered _ => s

/-- One micro-step of `MAP_OPEN()` (R172). -/
def mapStep (m : MapStep) (s : State) : Proc MapStep :=
  match m with
  | .m1 => .ask .openMemDevice .m1 s (fun a s =>
      if a.ok then .goto (.m2 .gpio) (s.setPlat { s.plat with memDevice := true, blocks := [] })
      else .raise .hardwareMapError .memDev s)
  | .m2 b => .ask (.mapBlock b) (.m2 b) s (fun a s =>
      if a.ok then
        .goto (match nextBlock b with | some b' => .m2 b' | none => .m3)
          (s.setPlat { s.plat with blocks := s.plat.blocks ++ [b] })
      else .raise .hardwareMapError (.block b) (dropWindow s))
  | .m3 => .done { s with mapped := true }

/-- Close the allocator's channel. -/
def platClose (s : State) : State := s.setPlat { s.plat with channel := false }

/-- Free the allocation: what the region held is gone (R310: "no region exists"). -/
def platFree (s : State) : State := (s.setPlat { s.plat with alloc := none }).setMem []

/-- Unlock the allocation. -/
def platUnlock (s : State) : State := s.setPlat { s.plat with locked := none }

/-- Unmap the region. -/
def platUnmap (s : State) : State := s.setPlat { s.plat with mapping := none }

/-- The bus base that a successful lock of `size` bytes carries: page-aligned (R65), and so low that every offset
of the region has a bus address, a u32 (R60, R66). The answer's number is any number: it is cut to the highest base
there is, and rounded down to a page (log 3, log 27). -/
def lockBase (c : Config) (size v : Nat) : Word := BitVec.ofNat 32 (min v (2 ^ 32 - size) / c.pageSize * c.pageSize)

/-- One micro-step of `ALLOCATE(sizeBytes)` (R171). -/
def allocateStep (sizeBytes : Nat) (a : AllocateStep) (s : State) : Proc AllocateStep :=
  match a with
  | .a0 => if s.region.isSome then .raise .allocationError .alreadyAllocated s else .goto .a1 s
  | .a1 => .ask .openChannel .a1 s (fun ans s =>
      if ans.ok then .goto .a2 (s.setPlat { s.plat with channel := true })
      else .raise .allocationError .channelOpen s)
  | .a2 => .ask (.allocate sizeBytes s.cfg.pageSize s.cfg.allocFlags) .a2 s (fun ans s =>
      if ans.ok then
        .goto (.a3 ans.value) (s.setPlat { s.plat with
          alloc := some { handle := ans.value, size := sizeBytes, align := s.cfg.pageSize, flags := s.cfg.allocFlags } })
      else .raise .allocationError .allocate (platClose s))
  | .a3 h => .ask (.lock h) (.a3 h) s (fun ans s =>
      if ans.ok then
        .goto (.a4 h (lockBase s.cfg sizeBytes ans.value)) (s.setPlat { s.plat with
          locked := some (lockBase s.cfg sizeBytes ans.value) })
      else .raise .allocationError .lock (platClose (platFree s)))
  | .a4 h bbase => .ask (.map (physAddr s.cfg bbase) sizeBytes) (.a4 h bbase) s (fun ans s =>
      if ans.ok then
        .goto (.a5 h bbase ans.value) (s.setPlat { s.plat with
          mapping := some { phys := physAddr s.cfg bbase, virt := ans.value, size := sizeBytes } })
      else .raise .allocationError .map (platClose (platFree (platUnlock s))))
  | .a5 h bbase vbase =>
    .done { s with region := some { handle := h, vbase := vbase, bbase := bbase, size := sizeBytes } }

/-! ## WAIT_IDLE -/

/-- One micro-step of `WAIT_IDLE()` (R181): one register read; it holds until its predicate holds (R182). -/
def waitStep (w : WaitStep) (s : State) : Proc WaitStep :=
  match w with
  | .w1 => .read .dmaCs flagActive .w1 s (fun active => if active then .goto .w1 s else .goto .w2 s)
  | .w2 => .read .pwmSta flagEmpt .w2 s (fun empt =>
      if empt then .done { s with dmaState := .idle } else .goto .w2 s)

/-! ## The DMA channel -/

/-- The word of the control block at a bus address, for each of its eight words (R184 START). -/
def loadWords (addr : Nat) (s : State) : Nat → Except Fault (Option (List Word))
  | 0 => .ok (some [])
  | n + 1 =>
    match busRead addr s with
    | .error f => .error f
    | .ok .misaligned => .ok none
    | .ok (.word w) =>
      match loadWords (addr + 4) s n with
      | .error f => .error f
      | .ok none => .ok none
      | .ok (some ws) => .ok (some (w :: ws))

/-- The control block at a bus address (R99, R184). -/
def loadBlock (addr : Word) (s : State) : Except Fault BusBlock :=
  match loadWords addr.toNat s 8 with
  | .error f => .error f
  | .ok (some [w0, w1, w2, w3, w4, w5, w6, w7]) => .ok (.block
      { ti := w0, source := w1, dest := w2, length := w3, stride := w4, next := w5, res6 := w6, res7 := w7 })
  | .ok _ => .ok .misaligned

/-- The control blocks the model gives a meaning to (R185). -/
def supportedCb (c : Config) (cb : ControlBlock) : Bool :=
  decide (cb.ti = tiValue c) && decide (cb.dest = fifoBus c) && decide (cb.next = 0)
    && decide (cb.length ≠ 0) && decide (cb.length.toNat % 4 = 0)

/-- START (R184): the effect of a write of CS with ACTIVE = 1 while the channel is stopped. The control
block is loaded once (R78); one the model gives no meaning to records UNSUPPORTED_CB, "and the agent does not
run" (R185). -/
def dmaStart (s : State) : Except Fault State :=
  if s.dma.phase = .running then .ok s
  else
    match loadBlock s.dma.conblkAd s with
    | .error f => .error f
    | .ok .misaligned => .ok (s.markFault .mixedWidth)
    | .ok (.block cb) =>
      if supportedCb s.cfg cb then
        .ok { s with dma := { s.dma with cb := cb, next := 0, phase := .running } }
      else .ok ({ s with dma := { s.dma with cb := cb, next := 0 } }.markFault .unsupportedCb)

/-- `L`: how many words the transfer moves (R184). -/
def transferLength (s : State) : Nat := s.dma.cb.length.toNat / 4

/-- The DMA agent's step (R184): MOVE while words are left and DREQ is asserted, END after the last. Where
neither is enabled nothing happens. A FIFO write that is unaligned or out of its block records REG_OUT_OF_BLOCK and is
not performed (R63), and the channel holds (log 21). The source address `SOURCE_AD + 4 × next` does not wrap (R11; log 27). -/
def dmaStep (s : State) : Host.Outcome State Fault Refusal :=
  if s.dma.phase = .running then
    if s.dma.next < transferLength s then
      if flagDreq s then
        match busRead (s.dma.cb.source.toNat + 4 * s.dma.next) s with
        | .error f => .fault f
        | .ok .misaligned => .next (s.markFault .mixedWidth)
        | .ok (.word w) =>
          if fifoInBlock s.cfg then
            .next { s with fifo := s.fifo ++ [w], dma := { s.dma with next := s.dma.next + 1 } }
          else .next (s.markFault .regOutOfBlock)
      else .next s
    else if s.dma.next = transferLength s then
      .next { s with dma := { s.dma with phase := .stopped } }
    else .next s
  else .next s

/-! ## TRANSMIT -/

/-- The element as a SourceBuffer word, `zext_32(e)` (R69). -/
def sourceWord (e : Byte) : Word := e.setWidth 32

/-- The control block's words in order (R99, R178 X4), for a transfer of `n` words from bus address `source`. -/
def controlWords (c : Config) (source : Word) (n : Nat) : List Word :=
  [tiValue c, source, fifoBus c, BitVec.ofNat 32 (4 * n), 0, 0, 0, 0]

/-- Where X3's loop goes on: element `i` of `n` is to be copied next. -/
def x3Label (i n : Nat) : TransmitStep := if i < n then .x3 i else .x4 0

/-- Where X4's writes go on: word `j` of the control block is to be written next. -/
def x4Label (j : Nat) : TransmitStep := if j < 8 then .x4 j else .x5

/-- A write of DMA.DEBUG: it "clears the error flags written as 1" (R64). -/
def writeDebug (flags : Word) (s : State) : State :=
  { s with dma := { s.dma with err := s.dma.err &&& ~~~flags } }

/-- A write of DMA.CONBLK_AD (R41). -/
def writeConblk (a : Word) (s : State) : State := { s with dma := { s.dma with conblkAd := a } }

/-- The PRIORITY field of a write of DMA.CS (R41, R187). -/
def writePriority (p : Nat) (s : State) : State := { s with dma := { s.dma with priority := p } }

/-- A write of DMA.CS with ACTIVE = 1: it sets PRIORITY and starts the channel (R41, R64, R184). As with every
register write, the window is looked at before the block (DESIGN CHOICE, log 33). -/
def csWrite (priority : Nat) (s : State) : Except Fault State :=
  if s.mapped then
    if regInBlock s.cfg .dmaCs then dmaStart (writePriority priority s) else .ok (s.markFault .regOutOfBlock)
  else .error .registersUnmapped

/-- One micro-step of `TRANSMIT()` (R178). -/
def transmitStep (x : TransmitStep) (s : State) : Proc TransmitStep :=
  match x with
  | .x1 => if s.region.isSome then .goto .x2 s else .raise .notSetUp .noRegion s
  | .x2 =>
    if s.capacity < s.stage.length then .raise .capacityError .payloadTooLong s
    else .goto (x3Label 0 s.stage.length) s
  | .x3 i =>
    match s.stage[i]? with
    | none => .goto (.x4 0) s
    | some e => .after (memWrite (cbBytes + 4 * i) 4 (sourceWord e) s) (.goto (x3Label (i + 1) s.stage.length))
  | .x4 j =>
    match regionAddr cbBytes s with
    | .error f => .stop f
    | .ok source =>
      match (controlWords s.cfg source s.stage.length)[j]? with
      | none => .goto .x5 s
      | some w => .after (memWrite (4 * j) 4 w s) (.goto (x4Label (j + 1)))
  | .x5 => .after (regWrite .dmaDebug (writeDebug (BitVec.allOnes 32)) s) (.goto .x6)
  | .x6 =>
    match regionAddr 0 s with
    | .error f => .stop f
    | .ok a => .after (regWrite .dmaConblk (writeConblk a) s) (.goto .x7)
  | .x7 => .after (csWrite s.cfg.dmaPriority s) (fun s => .done { s with dmaState := .armed })

/-! ## RELEASE -/

/-- One micro-step of `RELEASE()` (R188). "With `s.region = none` it does nothing" (R189). -/
def releaseStep (l : ReleaseStep) (s : State) : Proc ReleaseStep :=
  if s.region.isSome then
    match l with
    | .l1 w => if s.mapped then (waitStep w s).call .l1 (.goto .l2) else .goto .l2 s
    | .l2 => .goto .l3 (platUnmap s)
    | .l3 => .goto .l4 (platUnlock s)
    | .l4 => .goto .l5 (platFree s)
    | .l5 => .done { platClose s with region := none, capacity := 0, dmaState := .idle }
  else .done s

end Sys2Proof.Machine
end

