-- ==== Sys2Proof/Machine/Encoder.lean ====
section
/-! DEFINITION. The protocol encoder (43_encoder_commands.md): the waveform (R98, R220), the lifecycle gate
(R211), the micro-steps of the commands that have labelled steps, the step of each agent (R14), and the run of a
command to its end under the state's schedule. -/

namespace Sys2Proof.Machine

/-! ## The waveform -/

/-- `bitElem(b)` (R98). -/
def bitElem (s : State) (b : Bool) : Byte := if b then s.markOne else s.markZero

/-- `ledElems(c)`: 24 elements, most significant bit first (R98). -/
def ledElems (s : State) (c : Color) : List Byte :=
  (List.range bitsPerLed).map (fun k => bitElem s (c.getLsbD (23 - k)))

/-- The waveform W of the framebuffer (R220). -/
def waveform (s : State) : List Byte :=
  s.fb.flatMap (ledElems s) ++ List.replicate s.resetGapLength 0

/-! ## SEND, CLEAR_ALL, CLEANUP, SETUP -/

/-- One micro-step of SEND (R221). -/
def sendStep (e : SendStep) (s : State) : Proc SendStep :=
  match e with
  | .e1 => .goto (.e2 .w1) { s with stage := waveform s }
  | .e2 w => (waitStep w s).call .e2 (.goto (.e3 .x1))
  | .e3 x => (transmitStep x s).call .e3 (.goto (.e4 .w1))
  | .e4 w => (waitStep w s).call .e4 .done

/-- One micro-step of CLEAR_ALL (R224). -/
def clearStep (c : ClearStep) (s : State) : Proc ClearStep :=
  match c with
  | .fill => .goto (.send .e1) { s with fb := List.replicate s.ledCount 0 }
  | .send e => (sendStep e s).call .send .done

/-- One micro-step of CLEANUP (R226). RELEASE comes before MAP_CLOSE (90_conflicts.md C3). -/
def cleanupStep (c : CleanupStep) (s : State) : Proc CleanupStep :=
  match c with
  | .c1 a => (clearStep a s).call .c1 (.goto (.c2 (.l1 .w1)))
  | .c2 l => (releaseStep l s).call .c2 (.goto .c3)
  | .c3 => .goto .c4 (mapClose s)
  | .c4 => .done { s with ledCount := 0, fb := [], life := .unconfigured }

/-- S7: SETUP's commit (R212). -/
def commitSetup (pin ledCount : Int) (e : PinEntry) (s : State) : State :=
  { s with
    pin := pin
    ch := e.ch
    ledCount := ledCount.toNat
    capacity := capacityFor ledCount.toNat s.resetGapLength
    fb := List.replicate ledCount.toNat 0
    dmaState := .idle
    life := .ready }

/-- One micro-step of SETUP (R212). What S5 or S6 raises is preceded by MAP_CLOSE (R213). -/
def setupStep (pin ledCount : Int) (st : SetupStep) (s : State) : Proc SetupStep :=
  match st with
  | .s1 => if ledCountOk s.cfg ledCount then .goto .s2 s else .raise .configurationError .ledCount s
  | .s2 =>
    match lookupPin s.cfg pin with
    | none => .raise .configurationError .pin s
    | some e => .goto (.s3 e) s
  | .s3 e =>
    match deriveTiming s.cfg with
    | none => .raise .configurationError .timing s
    | some t => .goto (.s4 e .m1) (storeTiming t s)
  | .s4 e m => (mapStep m s).call (.s4 e) (.goto (.s5 e .k1))
  | .s5 e k => (configureStep e k s).callUndo (.s5 e) mapClose (.goto (.s6 e .a0))
  | .s6 e a =>
    (allocateStep (regionSize s.cfg (capacityFor ledCount.toNat s.resetGapLength)) a s).callUndo
      (.s6 e) mapClose (.goto (.s7 e))
  | .s7 e => .done (commitSetup pin ledCount e s)

/-- The end of the cleanup that serves a termination request: Halted, and "the host is told nothing beyond
the last command's response" (R284, R285). -/
def endTermination (s : State) : State := { s with life := .halted, pc := .idle }

/-- One micro-step of the sequencer while a command is in progress (R23). -/
def microStep (s : State) : Host.Outcome State Fault Refusal :=
  match s.pc with
  | .idle => .next s
  | .setup pin n st => resolve (.setup pin n) (endCommand []) (setupStep pin n st s)
  | .send st => resolve .send (endCommand []) (sendStep st s)
  | .clearAll st => resolve .clearAll (endCommand []) (clearStep st s)
  | .cleanup st => resolve .cleanup (endCommand []) (cleanupStep st s)
  | .terminate st => resolve .terminate endTermination (cleanupStep st s)

/-- One step of an agent while a command is in progress (R14). -/
def agentStep (a : Agent) (s : State) : Host.Outcome State Fault Refusal :=
  match a with
  | .seq => microStep s
  | .dma => dmaStep s
  | .pwm => .next (pwmStep s)
  | .clk => .next (clkStep s)
  | .timer => .next (timerStep s)
  | .host => .next (hostStep s)
  | .platform => .next (platformStep s)

/-! ## Performing a command -/

/-- Let the agents of a schedule move in turn until the command in progress has ended, or the schedule is
spent. The answer is the state and what is left of the schedule. -/
def drive : List Agent → State → Host.Outcome (State × List Agent) Fault Refusal
  | [], s => .next (s, [])
  | a :: rest, s =>
    if s.pc = .idle then .next (s, a :: rest)
    else
      match agentStep a s with
      | .next s' => drive rest s'
      | .fault f => .fault f
      | .refused r => .refused r

/-- Perform a command that has labelled steps (R13, R23): the sequencer moves to its first label, and the
agents move as the schedule says until the command ends. Where the schedule is spent first, the command is still
in progress and `step` goes on with it. -/
def performFrom (pc : Pc) (s : State) : Host.Outcome State Fault Refusal :=
  match drive s.sched (s.setPc pc) with
  | .next (s', rest) => .next { s' with sched := rest }
  | .fault f => .fault f
  | .refused r => .refused r

/-- The gate of SETUP (R211). -/
def gateSetup : Life → Gate
  | .unconfigured => .perform
  | .ready => .reply .allocationError .alreadyAllocated
  | .halted => .reply .halted .terminated

/-- The gate of SET_COLOR, SET_COLOR_HSB, SEND, CLEAR_ALL and ENCODE (R211). -/
def gateReady : Life → Gate
  | .unconfigured => .reply .notSetUp .notReady
  | .ready => .perform
  | .halted => .reply .halted .terminated

/-- The gate of CLEANUP (R211). -/
def gateCleanup : Life → Gate
  | .unconfigured => .reply .ok .none
  | .ready => .perform
  | .halted => .reply .halted .terminated

/-- The gate of HSB_TO_RGB (R211). -/
def gateAlways : Life → Gate
  | .unconfigured => .perform
  | .ready => .perform
  | .halted => .reply .halted .terminated

/-- Dispatch (R210): a command is handed over only while the sequencer is idle, and the gate comes "before
any other check" (R211); a gate outcome other than "perform" writes only the response. -/
def dispatch (gate : Life → Gate) (perform : State → Host.Outcome State Fault Refusal) (s : State) :
    Host.Outcome State Fault Refusal :=
  if s.pc = .idle then
    match gate s.life with
    | .perform => perform s
    | .reply st d => .next (s.respond st d [])
  else .refused .commandInProgress

/-- Write one framebuffer entry, or nothing where the index names none (R216, R273). -/
def setEntry (index r g b : Int) (s : State) : State :=
  match indexOf s.ledCount index with
  | none => s
  | some i => { s with fb := s.fb.set i (pack s.cfg.wireOrder (clampByte r) (clampByte g) (clampByte b)) }

/-! ## The meanings -/

/-- SETUP (R212). -/
def execSetup (pin ledCount : Int) (s : State) : Host.Outcome State Fault Refusal :=
  dispatch gateSetup (performFrom (.setup pin ledCount .s1)) s

/-- SET_COLOR (R216). -/
def execSetColor (index r g b : Int) (s : State) : Host.Outcome State Fault Refusal :=
  dispatch gateReady (fun s => .next (endCommand [] (setEntry index r g b s))) s

/-- SET_COLOR_HSB (R218). -/
def execSetColorHsb (index hue sat value : Int) (s : State) : Host.Outcome State Fault Refusal :=
  dispatch gateReady (fun s =>
    let c := hsbColor hue sat value
    .next (endCommand [] (setEntry index c.1 c.2.1 c.2.2 s))) s

/-- SEND (R221). -/
def execSend (s : State) : Host.Outcome State Fault Refusal :=
  dispatch gateReady (performFrom (.send .e1)) s

/-- CLEAR_ALL (R224). -/
def execClearAll (s : State) : Host.Outcome State Fault Refusal :=
  dispatch gateReady (performFrom (.clearAll .fill)) s

/-- CLEANUP (R226). -/
def execCleanup (s : State) : Host.Outcome State Fault Refusal :=
  dispatch gateCleanup (performFrom (.cleanup (.c1 .fill))) s

/-- The payload of ENCODE: a u32 element count, least significant byte first, then W (R94, R229). -/
def encodePayload (s : State) : List Byte :=
  wordBytes (BitVec.ofNat 32 (waveform s).length) ++ waveform s

/-- ENCODE (R229). -/
def execEncode (s : State) : Host.Outcome State Fault Refusal :=
  dispatch gateReady (fun s => .next (endCommand (encodePayload s) s)) s

/-- HSB_TO_RGB (R252). -/
def execHsbToRgb (h sat v : Int) (s : State) : Host.Outcome State Fault Refusal :=
  dispatch gateAlways (fun s => .next (endCommand (rgbBytes (hsbColor h sat v)) s)) s

end Sys2Proof.Machine
end

