-- ==== Sys2Proof/Machine/Dispatch.lean ====
section
/-! DEFINITION. One arm per command (30_encoding.md R92), each a direct call of its meaning. -/

namespace Sys2Proof.Machine

def exec (i : Instr) (s : State) : Host.Outcome State Fault Refusal :=
  match i with
  | .setup pin ledCount => Sys2Proof.Machine.execSetup pin ledCount s
  | .setColor index r g b => Sys2Proof.Machine.execSetColor index r g b s
  | .setColorHsb index hue sat value => Sys2Proof.Machine.execSetColorHsb index hue sat value s
  | .send => Sys2Proof.Machine.execSend s
  | .clearAll => Sys2Proof.Machine.execClearAll s
  | .cleanup => Sys2Proof.Machine.execCleanup s
  | .encode => Sys2Proof.Machine.execEncode s
  | .hsbToRgb h sat v => Sys2Proof.Machine.execHsbToRgb h sat v s

end Sys2Proof.Machine
end

