-- ==== Sys2Proof/Machine/Fetch.lean ====
section
/-! DEFINITION. What the idle sequencer does (R210, R284): it serves a termination request, or takes the
next command from the host's bytes; and the placing of an instruction where it is taken from. -/

namespace Sys2Proof.Machine

/-- A reserved opcode (R93, R280, R281): ILLEGAL_COMMAND and nothing else, except in Halted, where HALTED is
reported first. -/
def illegalCommand (s : State) : State :=
  match s.life with
  | .halted => s.respond .halted .terminated []
  | _ => s.respond .illegalCommand .unknownOpcode []

/-- The termination check (R284): with a request pending, a Ready block begins CLEANUP's steps, and an
Unconfigured one is Halted at once; in Halted the flag "is not tested again" (R286). -/
def terminationDue (s : State) : Bool := s.termPending && decide (s.life ≠ .halted)

/-- Serve the termination request (R284). -/
def serveTermination (s : State) : State :=
  match s.life with
  | .ready => s.setPc (.terminate (.c1 .fill))
  | _ => { s with life := .halted }

/-- What the idle sequencer finds to do: the termination check, then the host's next command; with none
there it stays idle (R210, R284). -/
def fetch (s : State) : Fetched :=
  if terminationDue s then .done (serveTermination s)
  else
    match decode s.input with
    | .empty => .done s
    | .short _ => .refused .transport
    | .reserved _ rest => .done (illegalCommand { s with input := rest })
    | .command i rest => .command i { s with input := rest }

/-- The state in which the sequencer's next step takes these bytes from the host: it is idle, it moves next,
no termination request is due, and the bytes come first. -/
def placeCommand (bytes : List Byte) (s : State) : State :=
  { s with input := bytes ++ s.input, sched := .seq :: s.sched, pc := .idle, termPending := false }

end Sys2Proof.Machine
end

