-- ==== Sys2Proof/Machine/Step.lean ====
section
/-! DEFINITION. One step of the machine: in a configuration that R10 accepts, one agent moves (R14). The
sequencer takes one micro-step of the command in progress, or, when idle, what `fetch` finds to do. -/

namespace Sys2Proof.Machine

/-- The sequencer's step. -/
def seqStep (s : State) : Host.Outcome State Fault Refusal :=
  if s.pc = .idle then
    match fetch s with
    | .command i s' => exec i s'
    | .done s' => .next s'
    | .refused r => .refused r
  else microStep s

/-- One step: the next agent moves. -/
def step (s : State) : Host.Outcome State Fault Refusal :=
  if configOk s.cfg then
    match nextAgent s with
    | (.seq, s') => seqStep s'
    | (a, s') => agentStep a s'
  else .refused .badConfiguration

/-- `s` with this instruction placed where the next step takes it from. -/
def State.withFetchWord (s : State) (nbits w : Nat) : State := placeCommand (tableBytes nbits w) s

end Sys2Proof.Machine
end

