-- ==== Sys2Proof/Safety.lean ====
section
/-! DEFINITION. The terms in which the claims speak of a good state: what is held in each lifecycle state
(R25, R271, R285), what the peripherals hold in Ready (R314), the single-writer rule (R75), the FIFO's bound
(R42), what a transfer has loaded (R178, R184), soundness, which no step leaves (R290), weak fairness (R323), and the
schedules under which a command runs to its end. -/

namespace Sys2Proof.Machine

/-! ## Resources -/

/-- The block's own record holds no hardware (R21, R310). -/
def HoldsNothing (s : State) : Prop :=
  s.mapped = false ∧ s.region = none ∧ s.capacity = 0 ∧ s.ledCount = 0 ∧ s.fb = []

/-- What is held of PLATFORM: the memory device, the blocks mapped, and whether the allocator's channel,
allocation, lock and mapping are held. -/
def platShape (p : Platform) : Bool × List Block × Bool × Bool × Bool × Bool :=
  (p.memDevice, p.blocks, p.channel, p.alloc.isSome, p.locked.isSome, p.mapping.isSome)

/-- The five blocks, in the order MAP_OPEN maps them (R172). -/
def allBlocks : List Block := [.gpio, .cm, .pwm, .timer, .dma]

/-- The blocks MAP_OPEN has mapped when `b` is next (R172). -/
def blocksBefore (b : Block) : List Block := allBlocks.takeWhile (fun x => x ≠ b)

/-- A bus base on a page (R65), so low that a region for this element count ends at or below 2^32, where one of that
size can (R60, R66; log 27). -/
def BaseFits (c : Config) (elements : Nat) (b : Word) : Prop :=
  b.toNat % c.pageSize = 0 ∧ b.toNat ≤ 2 ^ 32 - regionSize c elements

/-- The region is the one the allocation rules give for an element count (R65, R66, R68, R70). -/
def RegionFits (s : State) (elements : Nat) : Prop :=
  ∃ r, s.region = some r ∧ r.size = regionSize s.cfg elements ∧ BaseFits s.cfg elements r.bbase

/-- The framebuffer and the SourceBuffer's capacity are those of the LED count (R25, R32). -/
def BuffersFit (s : State) : Prop :=
  s.ledCount ≤ s.cfg.maxLeds ∧ s.capacity = capacityFor s.ledCount s.resetGapLength
    ∧ s.fb.length = s.ledCount

/-- What is held of PLATFORM in Ready. -/
def fullShape : Bool × List Block × Bool × Bool × Bool × Bool := (true, allBlocks, true, true, true, true)

/-- What is held of PLATFORM outside Ready: nothing (R271, R285). -/
def emptyShape : Bool × List Block × Bool × Bool × Bool × Bool := (false, [], false, false, false, false)

/-- Ready's invariants (R25): everything is held, and the buffers fit. -/
def HoldsAll (s : State) : Prop :=
  s.life = .ready ∧ s.mapped = true ∧ RegionFits s s.capacity ∧ BuffersFit s ∧ platShape s.plat = fullShape

/-- What SETUP holds while it runs, besides the register window: nothing (R212, R213). -/
def SetupHolds (s : State) (mapped : Bool) (shape : Bool × List Block × Bool × Bool × Bool × Bool) : Prop :=
  s.life = .unconfigured ∧ s.mapped = mapped ∧ s.region = none ∧ s.capacity = 0 ∧ s.ledCount = 0
    ∧ s.fb = [] ∧ platShape s.plat = shape

/-- What SETUP holds at each of its micro-steps (R171, R172, R212). -/
def setupResources (ledCount : Int) (s : State) : SetupStep → Prop
  | .s1 => SetupHolds s false emptyShape
  | .s2 => SetupHolds s false emptyShape ∧ ledCountOk s.cfg ledCount = true
  | .s3 _ => SetupHolds s false emptyShape ∧ ledCountOk s.cfg ledCount = true
  | .s4 _ .m1 => SetupHolds s false emptyShape ∧ ledCountOk s.cfg ledCount = true
  | .s4 _ (.m2 b) =>
    SetupHolds s false (true, blocksBefore b, false, false, false, false) ∧ ledCountOk s.cfg ledCount = true
  | .s4 _ .m3 => SetupHolds s false (true, allBlocks, false, false, false, false) ∧ ledCountOk s.cfg ledCount = true
  | .s5 _ _ => SetupHolds s true (true, allBlocks, false, false, false, false) ∧ ledCountOk s.cfg ledCount = true
  | .s6 _ .a0 => SetupHolds s true (true, allBlocks, false, false, false, false) ∧ ledCountOk s.cfg ledCount = true
  | .s6 _ .a1 => SetupHolds s true (true, allBlocks, false, false, false, false) ∧ ledCountOk s.cfg ledCount = true
  | .s6 _ .a2 => SetupHolds s true (true, allBlocks, true, false, false, false) ∧ ledCountOk s.cfg ledCount = true
  | .s6 _ (.a3 _) => SetupHolds s true (true, allBlocks, true, true, false, false) ∧ ledCountOk s.cfg ledCount = true
  | .s6 _ (.a4 _ b) =>
    SetupHolds s true (true, allBlocks, true, true, true, false) ∧ ledCountOk s.cfg ledCount = true
      ∧ BaseFits s.cfg (capacityFor ledCount.toNat s.resetGapLength) b
  | .s6 _ (.a5 _ b _) =>
    SetupHolds s true fullShape ∧ ledCountOk s.cfg ledCount = true
      ∧ BaseFits s.cfg (capacityFor ledCount.toNat s.resetGapLength) b
  | .s7 _ =>
    s.life = .unconfigured ∧ s.mapped = true ∧ RegionFits s (capacityFor ledCount.toNat s.resetGapLength)
      ∧ ledCountOk s.cfg ledCount = true ∧ platShape s.plat = fullShape

/-- What CLEANUP still holds at each of its micro-steps (R188, R226). -/
def cleanupResources (s : State) : CleanupStep → Prop
  | .c1 _ => HoldsAll s
  | .c2 (.l1 _) => HoldsAll s
  | .c2 .l2 => HoldsAll s
  | .c2 .l3 =>
    s.life = .ready ∧ s.mapped = true ∧ s.region.isSome ∧ platShape s.plat = (true, allBlocks, true, true, true, false)
  | .c2 .l4 =>
    s.life = .ready ∧ s.mapped = true ∧ s.region.isSome ∧ platShape s.plat = (true, allBlocks, true, true, false, false)
  | .c2 .l5 =>
    s.life = .ready ∧ s.mapped = true ∧ s.region.isSome ∧ platShape s.plat = (true, allBlocks, true, false, false, false)
  | .c3 =>
    s.life = .ready ∧ s.mapped = true ∧ s.region = none ∧ s.capacity = 0
      ∧ platShape s.plat = (true, allBlocks, false, false, false, false)
  | .c4 =>
    s.life = .ready ∧ s.region = none ∧ s.capacity = 0 ∧ s.mapped = false ∧ platShape s.plat = emptyShape

/-- The micro-steps at which SEQ has a request at PLATFORM (R171, R172). -/
def asksPlatform : Pc → Bool
  | .setup _ _ (.s4 _ .m1) => true
  | .setup _ _ (.s4 _ (.m2 _)) => true
  | .setup _ _ (.s6 _ .a1) => true
  | .setup _ _ (.s6 _ .a2) => true
  | .setup _ _ (.s6 _ (.a3 _)) => true
  | .setup _ _ (.s6 _ (.a4 _ _)) => true
  | _ => false

/-- The resources held are those of the lifecycle state and, while a command runs, of its micro-step. -/
def HeldMatch (s : State) : Prop :=
  match s.pc with
  | .idle =>
    match s.life with
    | .ready => HoldsAll s
    | _ => HoldsNothing s ∧ platShape s.plat = emptyShape
  | .setup _ n st => setupResources n s st
  | .send _ => HoldsAll s
  | .clearAll _ => HoldsAll s
  | .cleanup st => cleanupResources s st
  | .terminate st => cleanupResources s st

/-- INVARIANT: the resources held are those of the lifecycle state and, while a command runs, of its
micro-step (R25, R72, R189, R213, R271, R285); and a request stands at PLATFORM only at a micro-step that makes
one. -/
def ResourcesMatch (s : State) : Prop :=
  HeldMatch s ∧ (asksPlatform s.pc = false → s.exchange = .quiet)

/-! ## The peripherals' configuration -/

/-- The timing registers hold the derivation (R24, R135). -/
def TimingStored (s : State) : Prop := ∃ t, deriveTiming s.cfg = some t ∧ s = storeTiming t s

/-- The channel's group of CTL, but for PWEN (R314). -/
def GroupConfigured (x : PwmChannel) : Prop :=
  x.mode = .pwm ∧ x.rptl = false ∧ x.sbit = false ∧ x.pola = false ∧ x.usef = true ∧ x.msen = true

/-- The clock runs from CLK_SRC with DIVI = `s.div` (R140, R314). -/
def ClockRuns (s : State) : Prop :=
  s.cm.enab = true ∧ s.cm.src = s.cfg.clkSrc ∧ s.cm.divi = s.div ∧ s.cm.divf = 0
    ∧ s.clk = { running := true, src := s.cfg.clkSrc, divi := s.div }

/-- DMAC as K9 leaves it (R314). -/
def DmacConfigured (s : State) : Prop :=
  s.pwm.dmacEnab = true ∧ s.pwm.dmacDreq = s.cfg.dreqThreshold ∧ s.pwm.dmacPanic = s.cfg.panicThreshold

/-- What CONFIGURE has written before its step number `n` (R137, R138), for the pin entry `e`. -/
def ConfiguredUpTo (n : Nat) (e : PinEntry) (s : State) : Prop :=
  (2 ≤ n → readFsel s e.pin = e.fsel)
    ∧ (3 ≤ n → GroupConfigured (s.pwm.channel e.ch))
    ∧ (3 ≤ n → n ≤ 10 → (s.pwm.channel e.ch).pwen = false)
    ∧ (4 ≤ n → n ≤ 6 → s.cm.enab = false)
    ∧ (6 ≤ n → s.cm.divi = s.div ∧ s.cm.divf = 0)
    ∧ (7 ≤ n → ClockRuns s)
    ∧ (9 ≤ n → (s.pwm.channel e.ch).rng = s.range)
    ∧ (10 ≤ n → DmacConfigured s)
    ∧ (11 ≤ n → (s.pwm.channel e.ch).pwen = true)

/-- The number of a CONFIGURE step, K1 to K10 (R137). -/
def configureIndex : ConfigureStep → Nat
  | .k1 => 1
  | .k2 => 2
  | .k3 => 3
  | .k4 => 4
  | .k4Busy _ => 4
  | .k4Time _ => 4
  | .k5 => 5
  | .k6 => 6
  | .k7 => 7
  | .k7Wait _ => 7
  | .k8 => 8
  | .k9 => 9
  | .k10 => 10

/-- Everything CONFIGURE leaves (R314), for the pin entry `e`. -/
def FullyConfigured (e : PinEntry) (s : State) : Prop := TimingStored s ∧ ConfiguredUpTo 11 e s

/-- The peripherals as SETUP left them (R314): the entry is that of `s.pin`, its channel is `s.ch`. -/
def HardwareReady (s : State) : Prop :=
  ∃ e, lookupPin s.cfg s.pin = some e ∧ e.ch = s.ch ∧ FullyConfigured e s

/-- INVARIANT: in Ready the peripherals are as R314 says, and while SETUP runs they are as far configured as
its micro-step says (R138, R314). -/
def HardwareMatches (s : State) : Prop :=
  match s.pc with
  | .setup pin _ st =>
    s.life = .unconfigured ∧
    match st with
    | .s1 => True
    | .s2 => True
    | .s3 e => lookupPin s.cfg pin = some e
    | .s4 e _ => lookupPin s.cfg pin = some e ∧ TimingStored s
    | .s5 e k => lookupPin s.cfg pin = some e ∧ TimingStored s ∧ ConfiguredUpTo (configureIndex k) e s
    | .s6 e _ => lookupPin s.cfg pin = some e ∧ FullyConfigured e s
    | .s7 e => lookupPin s.cfg pin = some e ∧ FullyConfigured e s
  | _ => s.life = .ready → HardwareReady s

/-! ## The DMA and the FIFO -/

/-- The places of TRANSMIT at which the channel must be stopped (R75, R175). -/
def sendQuiet : SendStep → Prop
  | .e2 .w2 => True
  | .e3 _ => True
  | .e4 .w2 => True
  | _ => False

/-- The same inside CLEAR_ALL. -/
def clearQuiet : ClearStep → Prop
  | .fill => False
  | .send e => sendQuiet e

/-- The same inside CLEANUP, and the places at which RELEASE, having waited, gives the region back. -/
def cleanupQuiet (s : State) : CleanupStep → Prop
  | .c1 c => clearQuiet c
  | .c2 (.l1 .w1) => False
  | .c2 (.l1 .w2) => True
  | .c2 _ => s.mapped = true
  | .c3 => False
  | .c4 => False

/-- The micro-steps at which no transfer can be running: from WAIT_IDLE's W1 to TRANSMIT's X7, and once the
last W1 has passed (R75, R181, R321, R325). -/
def QuietPlace (s : State) : Prop :=
  match s.pc with
  | .send e => sendQuiet e
  | .clearAll c => clearQuiet c
  | .cleanup c => cleanupQuiet s c
  | .terminate c => cleanupQuiet s c
  | _ => False

/-- INVARIANT: no region write was ever asked for while the DMA ran, because at every place that writes, or
frees, the region the channel is stopped (R75, R222 (a), R321, R325). -/
def SingleWriter (s : State) : Prop :=
  s.fault ≠ some .dmaRace ∧ (QuietPlace s → s.dma.phase = .stopped)

/-- INVARIANT: the FIFO holds at most FIFO_DEPTH words (R42), and what DMAC may request does not pass it
(R183). -/
def FifoBounded (s : State) : Prop :=
  s.fifo.length ≤ s.cfg.fifoDepth ∧ (s.pwm.dmacEnab = true → s.pwm.dmacDreq ≤ s.cfg.fifoDepth)

/-- INVARIANT: a running channel runs a control block the model gives a meaning to, and has not moved more
words than it names (R184, R185). -/
def TransferSound (s : State) : Prop :=
  s.dma.phase = .running → supportedCb s.cfg s.dma.cb = true ∧ s.dma.next ≤ transferLength s

/-! ## What a transfer has loaded -/

/-- SEND's micro-step in progress, in SEND itself and in the commands that perform it (R221, R224, R226). -/
def sendPlace : Pc → Option SendStep
  | .send e => some e
  | .clearAll (.send e) => some e
  | .cleanup (.c1 (.send e)) => some e
  | .terminate (.c1 (.send e)) => some e
  | _ => none

/-- The first `n` elements of the staging register lie in the SourceBuffer (R69, R178 X3). -/
def SourceWritten (s : State) (r : Region) (n : Nat) : Prop :=
  ∀ i e, i < n → s.stage[i]? = some e → getWord r (cbBytes + 4 * i) s.mem = some (sourceWord e)

/-- The first `n` words of the control block lie in the region (R99, R178 X4). -/
def BlockWritten (s : State) (r : Region) (n : Nat) : Prop :=
  ∃ source, busAddr r cbBytes = some source ∧
    ∀ j w, j < n → (controlWords s.cfg source s.stage.length)[j]? = some w → getWord r (4 * j) s.mem = some w

/-- What TRANSMIT has written before each of its micro-steps (R178). -/
def transmitProgress (s : State) (r : Region) : TransmitStep → Prop
  | .x1 => True
  | .x2 => True
  | .x3 i => i < s.stage.length ∧ SourceWritten s r i
  | .x4 j => j < 8 ∧ SourceWritten s r s.stage.length ∧ BlockWritten s r j
  | .x5 => SourceWritten s r s.stage.length ∧ BlockWritten s r 8
  | .x6 => SourceWritten s r s.stage.length ∧ BlockWritten s r 8
  | .x7 => SourceWritten s r s.stage.length ∧ BlockWritten s r 8 ∧ busAddr r 0 = some s.dma.conblkAd

/-- The eight words of a control block, in order (R99). -/
def ControlBlock.words (cb : ControlBlock) : List Word :=
  [cb.ti, cb.source, cb.dest, cb.length, cb.stride, cb.next, cb.res6, cb.res7]

/-- From E1 on the staging register holds the waveform; TRANSMIT has written what its micro-step says; and a
transfer runs only while SEND waits for it, from TRANSMIT's control block and the words of the waveform (R178, R184). -/
def TransferLoaded (s : State) : Prop :=
  (∀ e, sendPlace s.pc = some e → e ≠ .e1 → s.stage = waveform s)
    ∧ (∀ x r, sendPlace s.pc = some (.e3 x) → s.region = some r → transmitProgress s r x)
    ∧ (s.dma.phase = .running → sendPlace s.pc = some (.e4 .w1)
        ∧ ∃ r source, s.region = some r ∧ busAddr r cbBytes = some source ∧ SourceWritten s r s.stage.length
          ∧ s.dma.cb.words = controlWords s.cfg source s.stage.length ∧ s.dma.next ≤ s.stage.length)

/-- Everything is as the rules leave it: what is held, how the peripherals are configured, what a transfer has
loaded. -/
def InOrder (s : State) : Prop :=
  configOk s.cfg = true ∧ HeldMatch s ∧ HardwareMatches s ∧ TransferLoaded s

/-- INVARIANT: everything is in order, no request stands where none was made, and no model fault is recorded. "No
rule of this spec reaches any of them" (R290): from a sound state no step records a fault or stops. -/
def Sound (s : State) : Prop :=
  InOrder s ∧ (asksPlatform s.pc = false → s.exchange = .quiet) ∧ s.fault = none

/-- A good final state: no command in progress and no model fault. "A state with `s.fault ≠ none` is never a
good final state" (R30, R290). -/
def GoodFinal (s : State) : Prop := s.pc = .idle ∧ s.fault = none

/-! ## Weak fairness (R323) -/

/-- The agent has a step that does something: SEQ while a command is in progress, the DMA's MOVE or END (R184),
the PWM's cycle step (R141), the CLK step after a stop write (R45), PLATFORM with a request to answer (R170); TIMER
"is always enabled", and HOST may act at any time. -/
def agentEnabled (s : State) : Agent → Bool
  | .seq => decide (s.pc ≠ .idle)
  | .dma => decide (s.dma.phase = .running)
      && ((decide (s.dma.next < transferLength s) && flagDreq s) || decide (s.dma.next = transferLength s))
  | .pwm => pwmEnabled s
  | .clk => !s.cm.enab
  | .timer => true
  | .host => true
  | .platform => match s.exchange with | .asked _ => true | _ => false

/-- A run of one command: at each point the agent that moves takes the state on (R14). -/
def IsRun (run : Nat → State) (moved : Nat → Agent) : Prop :=
  ∀ n, agentStep (moved n) (run n) = .next (run (n + 1))

/-- Weak fairness for an agent: whenever its step stays enabled, it eventually takes its step (R323). -/
def WeaklyFair (a : Agent) (run : Nat → State) (moved : Nat → Agent) : Prop :=
  ∀ n, (∀ m, n ≤ m → agentEnabled (run m) a = true) → ∃ m, n ≤ m ∧ moved m = a

/-- R323's assumption: weak fairness for DMA, PWM and TIMER; and SEQ goes on with the command in progress, which
the rule takes for granted. -/
def FairRun (run : Nat → State) (moved : Nat → Agent) : Prop :=
  IsRun run moved ∧ WeaklyFair .dma run moved ∧ WeaklyFair .pwm run moved ∧ WeaklyFair .timer run moved
    ∧ WeaklyFair .seq run moved

/-- How many TIMER steps lie between two points of a run. -/
def timerSteps (moved : Nat → Agent) (n m : Nat) : Nat :=
  ((List.range (m - n)).filter (fun k => moved (n + k) = .timer)).length

/-- While a command is in progress, at most `g` TIMER steps pass without a step of SEQ. R323's conclusion for K4 and
K7 needs such a bound (DEDUCED, log 23): CLO wraps (R40), and a poll that meets it after whole turns sees too little
time pass. -/
def PromptSeq (g : Nat) (run : Nat → State) (moved : Nat → Agent) : Prop :=
  ∀ n m, n ≤ m → (∀ k, n ≤ k → k ≤ m → (run k).pc ≠ .idle) → (∀ k, n ≤ k → k < m → moved k ≠ .seq) →
    timerSteps moved n m ≤ g

/-- What SETUP's end needs beside R323's fairness: PLATFORM answers each request (R170), and SEQ polls often enough
that CLO does not pass both waits' bounds unseen (log 23). -/
def SetupFair (c : Config) (run : Nat → State) (moved : Nat → Agent) : Prop :=
  WeaklyFair .platform run moved
    ∧ ∃ g, PromptSeq g run moved ∧ c.settleUs + g ≤ 2 ^ 32 ∧ c.busyTimeoutUs + 2 * g ≤ 2 ^ 32

/-! ## Schedules under which a command ends (R323) -/

/-- `n` sequencer steps. -/
def seqSteps (n : Nat) : List Agent := List.replicate n .seq

/-- `n` requests to PLATFORM: SEQ asks, PLATFORM answers, SEQ goes on (R170). -/
def requests (n : Nat) : List Agent := (List.replicate n [Agent.seq, .platform, .seq]).flatten

/-- SETUP from S1 to the end of MAP_OPEN's requests. -/
def mapSchedule : List Agent := seqSteps 3 ++ requests 6

/-- From M3 to A0: K4's first read, the clock's stop, K4's poll to K7's read of the timer, the settle time, and
the rest. -/
def configureSchedule (c : Config) : List Agent :=
  seqSteps 5 ++ .clk :: seqSteps 4 ++ List.replicate c.settleUs .timer ++ seqSteps 5

/-- SETUP to its end. -/
def setupSchedule (c : Config) : List Agent := mapSchedule ++ configureSchedule c ++ requests 4 ++ seqSteps 2

/-- SETUP up to its request number `k` (counted from 0), which PLATFORM refuses. -/
def refusedSchedule (c : Config) (k : Nat) : List Agent :=
  if k < 6 then seqSteps 3 ++ requests (k + 1) else mapSchedule ++ configureSchedule c ++ requests (k - 5)

/-- SETUP up to K4's second read of the timer, with the clock still busy after BUSY_TIMEOUT_US. -/
def busySchedule (c : Config) : List Agent :=
  mapSchedule ++ seqSteps 5 ++ List.replicate c.busyTimeoutUs .timer ++ seqSteps 2

/-- What SETUP answers when PLATFORM refuses its request number `k` (R171, R172). -/
def requestErrors : List (Status × Detail) :=
  [(.hardwareMapError, .memDev), (.hardwareMapError, .block .gpio), (.hardwareMapError, .block .cm),
    (.hardwareMapError, .block .pwm), (.hardwareMapError, .block .timer), (.hardwareMapError, .block .dma),
    (.allocationError, .channelOpen), (.allocationError, .allocate), (.allocationError, .lock),
    (.allocationError, .map)]

/-- What a SETUP that was performed can answer but OK (R212, R277). -/
def setupErrors : List (Status × Detail) :=
  [(.configurationError, .ledCount), (.configurationError, .pin), (.configurationError, .timing),
    (.configurationError, .clockBusyTimeout)] ++ requestErrors

/-- One SEND of `n` elements to its end: E1 to X7, then each word moved and emitted in turn, the
transfer's end, and the last WAIT_IDLE. Its order of agents meets R322's NO_UNDERRUN. -/
def sendSchedule (n : Nat) : List Agent :=
  seqSteps (n + 16) ++ (List.replicate n [Agent.dma, Agent.pwm]).flatten ++ [.dma, .seq, .seq]

/-- CLEAR_ALL to its end. -/
def clearSchedule (n : Nat) : List Agent := .seq :: sendSchedule n

/-- CLEANUP to its end. -/
def cleanupSchedule (n : Nat) : List Agent := clearSchedule n ++ seqSteps 8

/-- PLATFORM grants all ten requests of a SETUP, with these numbers for the handle, the lock's bus address
and the virtual address (R170: PLATFORM_OK). -/
def grantAll (handle lock virt : Nat) : List Answer :=
  List.replicate 7 { ok := true, value := 0 }
    ++ [{ ok := true, value := handle }, { ok := true, value := lock }, { ok := true, value := virt }]

/-- A state from which SEND can run: Ready and idle, everything held and configured, the channel stopped
and the FIFO empty (R222; R46's FIFO_EMPTY_AT_SETUP for the first frame). -/
def ReadyToSend (s : State) : Prop :=
  configOk s.cfg = true ∧ s.pc = .idle ∧ HoldsAll s ∧ HardwareReady s
    ∧ s.dma.phase = .stopped ∧ s.fifo = []

/-- The cycles of a frame: each element's mark, with the range in force (R145). -/
def frameCycles (s : State) (w : List Byte) : List Cycle :=
  w.map (fun e => { mark := sourceWord e, range := s.range })

end Sys2Proof.Machine
end

