-- ==== Sys2Proof/Certificates/Slice0/Obligations.lean ====
section
/-! DEFINITION. The statements for the provers, in the order: encodings, the bit-timer's derivation, the
waveform and the colour model, memory and registers, the step, the gate, the commands, the agents, the
invariants. Each docstring names the rule of spec/ that is formalised. -/

open Sys2Proof Sys2Proof.Machine

/-! ## Encodings -/

/-- 30_encoding.md R91, R92: words written out byte by byte (95_test_vectors.md §3) decode to the commands
they stand for. -/
def Obligations.SampleWordsDecode : Prop :=
  decode [0x01, 0x12, 0x00, 0x00, 0x00, 0x03, 0x00, 0x00, 0x00] = .command (.setup 18 3) []
    ∧ decode [0x02, 0x01, 0x00, 0x00, 0x00, 0x2C, 0x01, 0x00, 0x00, 0xFB, 0xFF, 0xFF, 0xFF, 0x80, 0x00, 0x00, 0x00]
        = .command (.setColor 1 300 (-5) 128) []
    ∧ decode [0x08, 0x1E, 0x00, 0x00, 0x00, 0xFF, 0x00, 0x00, 0x00, 0xFF, 0x00, 0x00, 0x00]
        = .command (.hsbToRgb 30 255 255) []
    ∧ decode [0x04, 0x07] = .command .send [0x07]

/-- R91, R92, R95, R101: decoding an encoded well-formed command gives it back, and "bytes after the
format's length belong to the next command" (R93). -/
def Obligations.DecodeOfEncode : Prop :=
  ∀ (i : Instr) (rest : List Byte), i.wf = true → decode (encode i ++ rest) = .command i rest

/-- R91, R93, R101: what the decoder reads as a command is the encoding of a well-formed command. -/
def Obligations.EncodeOfDecode : Prop :=
  ∀ (bs rest : List Byte) (i : Instr), decode bs = .command i rest → i.wf = true ∧ bs = encode i ++ rest

/-- R93, R101: opcode 0x00 and opcodes 0x09 to 0xFF, and no others, are reserved, with length 1; a byte string
shorter than its opcode's format is not a command. -/
def Obligations.ReservedAndShortStrings : Prop :=
  (∀ (op : Byte) (rest : List Byte),
      decode (op :: rest) = .reserved op rest ↔ op.toNat = 0 ∨ 9 ≤ op.toNat)
    ∧ ∀ (op : Byte) (rest : List Byte), 1 ≤ op.toNat → op.toNat ≤ 8 →
        (decode (op :: rest) = .short op ↔ rest.length + 1 < commandLength op)

/-! ## The timing derivation -/

/-- R131: a duration of T ns is the nearest whole number of ticks, an exact half rounded up, and `range`, `Z`
and `O` are the ticks of 1250, 400 and 800 ns. -/
def Obligations.TicksRoundToNearest : Prop :=
  ∀ (c : Config) (t d : Nat), 1 ≤ d →
    2 * (ticks c t d * (d * 10 ^ 9)) ≤ 2 * (t * c.fSrcHz) + d * 10 ^ 9
      ∧ 2 * (t * c.fSrcHz) + d * 10 ^ 9 < 2 * ((ticks c t d + 1) * (d * 10 ^ 9))
      ∧ rangeTicks c d = ticks c 1250 d ∧ zeroTicks c d = ticks c 400 d ∧ oneTicks c d = ticks c 800 d

/-- R132: a divider is valid exactly when (a) to (e) hold. -/
def Obligations.ValidDividerMeaning : Prop :=
  ∀ (c : Config) (d : Nat), validDiv c d = true ↔
    (1 ≤ d ∧ d ≤ c.divMax)
      ∧ (∀ kt ∈ [(rangeTicks c d, 1250), (zeroTicks c d, 400), (oneTicks c d, 800)],
          |((kt.1 * d * 10 ^ 9 : Nat) : Int) - ((kt.2 * c.fSrcHz : Nat) : Int)| ≤ 150 * (c.fSrcHz : Int))
      ∧ (1 ≤ zeroTicks c d ∧ zeroTicks c d < oneTicks c d ∧ oneTicks c d ≤ rangeTicks c d)
      ∧ oneTicks c d ≤ 255
      ∧ rangeTicks c d ≤ 2 ^ 32 - 1

/-- R133: a given CLK_DIV is taken if it is valid and AUTO takes the least valid divider; where there is none
the derivation fails and SETUP's S3 raises CONFIGURATION_ERROR(TIMING); range, markZero and markOne are those of
the divider. -/
def Obligations.DividerIsLeastValid : Prop :=
  ∀ c : Config,
    (∀ d, c.clkDiv = some d → ((deriveTiming c).map Timing.div = if validDiv c d then some d else none))
      ∧ (c.clkDiv = none →
          (∀ t, deriveTiming c = some t → validDiv c t.div = true ∧ ∀ d, validDiv c d = true → t.div ≤ d)
            ∧ (deriveTiming c = none ↔ ∀ d, validDiv c d = false))
      ∧ (∀ t, deriveTiming c = some t →
          t.range = rangeTicks c t.div ∧ t.markZero = zeroTicks c t.div ∧ t.markOne = oneTicks c t.div)
      ∧ (deriveTiming c = none → ∀ (s : State) (pin n : Int) (e : PinEntry), s.cfg = c →
          setupStep pin n (.s3 e) s = .raise .configurationError .timing s)

/-- R134: resetGapLength is the least number of whole cycles that lasts at least T_RESET_NS, and at least 1. -/
def Obligations.ResetGapIsLeast : Prop :=
  ∀ (c : Config) (t : Timing), deriveTiming c = some t → 1 ≤ c.tResetNs → 1 ≤ c.fSrcHz →
    c.tResetNs * c.fSrcHz ≤ t.resetGapLength * (t.range * t.div * 10 ^ 9)
      ∧ (∀ n, c.tResetNs * c.fSrcHz ≤ n * (t.range * t.div * 10 ^ 9) → t.resetGapLength ≤ n)
      ∧ 1 ≤ t.resetGapLength

/-- R135: SETUP's step S3, after a successful derivation, writes the five timing registers and nothing else,
and then 1 ≤ Z < O ≤ range, O ≤ 255 and resetGapLength ≥ 1. -/
def Obligations.StoredTimingSound : Prop :=
  ∀ (s : State) (t : Timing) (pin n : Int) (e : PinEntry), deriveTiming s.cfg = some t →
    1 ≤ s.cfg.tResetNs → 1 ≤ s.cfg.fSrcHz →
    ∃ u, setupStep pin n (.s3 e) s = .goto (.s4 e .m1) u
      ∧ u = { s with div := u.div, range := u.range, markZero := u.markZero, markOne := u.markOne,
                     resetGapLength := u.resetGapLength }
      ∧ u.div = t.div ∧ u.range.toNat = t.range ∧ u.markZero.toNat = t.markZero ∧ u.markOne.toNat = t.markOne
      ∧ u.resetGapLength = t.resetGapLength
      ∧ 1 ≤ u.markZero.toNat ∧ u.markZero.toNat < u.markOne.toNat ∧ u.markOne.toNat ≤ u.range.toNat
      ∧ u.markOne.toNat ≤ 255 ∧ 1 ≤ u.resetGapLength

/-- R146: given a successful derivation, a cycle and its marks are within 150 ns of 1250, 400 and 800 ns, and
the gap lasts at least T_RESET_NS. -/
def Obligations.CyclesConform : Prop :=
  ∀ (c : Config) (t : Timing), deriveTiming c = some t →
    |((t.range * t.div * 10 ^ 9 : Nat) : Int) - 1250 * (c.fSrcHz : Int)| ≤ 150 * (c.fSrcHz : Int)
      ∧ |((t.markZero * t.div * 10 ^ 9 : Nat) : Int) - 400 * (c.fSrcHz : Int)| ≤ 150 * (c.fSrcHz : Int)
      ∧ |((t.markOne * t.div * 10 ^ 9 : Nat) : Int) - 800 * (c.fSrcHz : Int)| ≤ 150 * (c.fSrcHz : Int)
      ∧ c.tResetNs * c.fSrcHz ≤ t.resetGapLength * t.range * t.div * 10 ^ 9

/-- 20_memory.md R68: the region is the least whole number of pages that holds the 32-byte control block and
one word for each element. -/
def Obligations.RegionIsLeastPages : Prop :=
  ∀ (c : Config) (capacity : Nat), 1 ≤ c.pageSize →
    c.pageSize ∣ regionSize c capacity ∧ 32 + 4 * capacity ≤ regionSize c capacity
      ∧ ∀ m, c.pageSize ∣ m → 32 + 4 * capacity ≤ m → regionSize c capacity ≤ m

/-! ## The waveform and the colour model -/

/-- R97: `pack(r, g, b)` has the first-transmitted channel in bits 23:16, the second in 15:8, the third in 7:0;
the order is g, r, b for GRB and r, g, b for RGB. -/
def Obligations.PackInWireOrder : Prop :=
  ∀ r g b : Int, 0 ≤ r → r ≤ 255 → 0 ≤ g → g ≤ 255 → 0 ≤ b → b ≤ 255 →
    ((pack .grb r g b).toNat : Int) = g * 65536 + r * 256 + b
      ∧ ((pack .rgb r g b).toNat : Int) = r * 65536 + g * 256 + b

/-- R220: W has 24 × ledCount + resetGapLength elements, which is the capacity; element 24i + k is O or Z as
bit 23 − k of `fb[i]` is 1 or 0; and the last resetGapLength elements are 0. -/
def Obligations.WaveformElements : Prop :=
  ∀ s : State, BuffersFit s →
    (waveform s).length = 24 * s.ledCount + s.resetGapLength
      ∧ (waveform s).length = s.capacity
      ∧ (∀ (i k : Nat) (color : Color), s.fb[i]? = some color → k < 24 →
          (waveform s)[24 * i + k]? = some (if color.getLsbD (23 - k) then s.markOne else s.markZero))
      ∧ ∀ j, j < s.resetGapLength → (waveform s)[24 * s.ledCount + j]? = some 0

/-- R98: every element of the waveform is one of three values, 0, Z or O, and with the derivation stored they
are distinct. -/
def Obligations.WaveformHasThreeValues : Prop :=
  ∀ s : State, TimingStored s →
    (∀ e ∈ waveform s, e = 0 ∨ e = s.markZero ∨ e = s.markOne)
      ∧ s.markZero ≠ 0 ∧ s.markOne ≠ 0 ∧ s.markZero ≠ s.markOne

/-- R253: the source's own examples of the colour model, and zero saturation is achromatic. -/
def Obligations.ColorModelExamples : Prop :=
  hsbToRgb 0 255 255 = (255, 0, 0) ∧ hsbToRgb 120 255 255 = (0, 255, 0)
    ∧ hsbToRgb 240 255 255 = (0, 0, 255)
    ∧ ∀ h v : Int, 0 ≤ h → h ≤ 359 → 0 ≤ v → v ≤ 255 → hsbToRgb h 0 v = (v, v, v)

/-- R251, R254 (a) to (c): on every clamped input each channel lies in 0..v and the largest is v; with s = 255
at a sector's start each is 0 or v; with v = 0 all are 0. -/
def Obligations.ColorModelBounds : Prop :=
  ∀ h s v : Int, 0 ≤ h → h ≤ 359 → 0 ≤ s → s ≤ 255 → 0 ≤ v → v ≤ 255 →
    let c := hsbToRgb h s v
    (0 ≤ c.1 ∧ c.1 ≤ v) ∧ (0 ≤ c.2.1 ∧ c.2.1 ≤ v) ∧ (0 ≤ c.2.2 ∧ c.2.2 ≤ v)
      ∧ max c.1 (max c.2.1 c.2.2) = v
      ∧ (s = 255 → h % 60 = 0 → (c.1 = 0 ∨ c.1 = v) ∧ (c.2.1 = 0 ∨ c.2.1 = v) ∧ (c.2.2 = 0 ∨ c.2.2 = v))
      ∧ (v = 0 → c = (0, 0, 0))

/-! ## Memory and registers -/

/-- 20_memory.md R67: an aligned word written inside the region of a stopped channel lies there least
significant byte first, a read of it gives it back, and every address outside its four bytes reads as before. -/
def Obligations.RegionWordWriteRead : Prop :=
  ∀ (s : State) (r : Region) (off : Nat) (v : Word), s.region = some r → off % 4 = 0 → r.has off 4 = true →
    s.dma.phase = .stopped →
    ∃ t, memWrite off 4 v s = .ok t ∧ t = { s with mem := t.mem }
      ∧ memRead off 4 t = .ok (some v, t)
      ∧ (∀ k, k < 4 → memByte t.mem (cellOf r (off + k)) = some (v.extractLsb' (8 * k) 8))
      ∧ ∀ a, (∀ k, k < 4 → a ≠ cellOf r (off + k)) → memByte t.mem a = memByte s.mem a

/-- R60, R62, R63, R66, R71, R75: a region write or read that is not one aligned word, a DMA read at an address that
is not aligned, a region write while the DMA runs, and a register access, of SEQ or of the DMA, whose address is not
aligned to 4 bytes or that lies outside its block or the address space each record their model fault and are not
performed. The model's choices in it: an earlier fault stays (log 12, DEDUCED); a region access outside the region and a
register access without the window stop first (logs 28, 33), and a region write that is both misaligned and made while
the DMA runs is MIXED_WIDTH (log 28); a read without a value holds, as the channel does that cannot write FIF1 (log 21);
and a channel whose control block is misaligned does not start (log 25). -/
def Obligations.MisuseIsRecordedNotPerformed : Prop :=
  (∀ (r : Region) (off n : Nat),
      r.has off n = true ↔ off + n ≤ r.size ∧ r.bbase.toNat + off + n ≤ 2 ^ 32)
    ∧ (∀ (s : State) (r : Region) (off n : Nat) (v : Word), s.region = some r →
      (r.has off n = true → (n ≠ 4 ∨ off % 4 ≠ 0) →
        memWrite off n v s = .ok { s with fault := some (s.fault.getD .mixedWidth) }
          ∧ memRead off n s = .ok (none, { s with fault := some (s.fault.getD .mixedWidth) }))
        ∧ (n = 4 → off % 4 = 0 → r.has off n = true → s.dma.phase = .running →
            memWrite off n v s = .ok { s with fault := some (s.fault.getD .dmaRace) })
        ∧ (r.has off n = false →
            memWrite off n v s = .error .outsideRegion ∧ memRead off n s = .error .outsideRegion))
    ∧ (∀ (c : Config) (base : Word) (reg : Reg),
        (accessOk c base reg = true ↔ regAddr c base reg % 4 = 0
          ∧ regOffset c reg + 4 ≤ c.layout.pageBytes ∧ regAddr c base reg + 4 ≤ 2 ^ 32)
        ∧ regInBlock c reg = accessOk c c.periphBasePhys reg ∧ fifoInBlock c = accessOk c c.periphBaseBus .pwmFif1)
    ∧ (∀ (s : State) (reg : Reg) (eff : State → State) (value : State → Word) (stay : WaitStep)
        (k : Word → Proc WaitStep),
        (s.mapped = true → regInBlock s.cfg reg = false →
          regWrite reg eff s = .ok { s with fault := some (s.fault.getD .regOutOfBlock) }
            ∧ Proc.read reg value stay s k = .goto stay { s with fault := some (s.fault.getD .regOutOfBlock) })
        ∧ (s.mapped = false → regWrite reg eff s = .error .registersUnmapped
            ∧ Proc.read reg value stay s k = .stop .registersUnmapped))
    ∧ (∀ (s : State) (r : Region) (off : Nat), s.region = some r → s.dma.phase = .running →
        s.dma.next < transferLength s → flagDreq s = true →
        s.dma.cb.source.toNat + 4 * s.dma.next = r.bbase.toNat + off →
        (r.has off 4 = false → agentStep .dma s = .fault .outsideRegion)
          ∧ (r.has off 4 = true → off % 4 ≠ 0 →
              agentStep .dma s = .next { s with fault := some (s.fault.getD .mixedWidth) })
          ∧ (r.has off 4 = true → off % 4 = 0 → (getWord r off s.mem).isSome = true → fifoInBlock s.cfg = false →
              agentStep .dma s = .next { s with fault := some (s.fault.getD .regOutOfBlock) }))
    ∧ ∀ (s : State) (r : Region) (off : Nat), s.region = some r → s.dma.phase = .stopped →
        s.dma.conblkAd.toNat = r.bbase.toNat + off → r.has off 4 = true → off % 4 ≠ 0 →
        dmaStart s = .ok { s with fault := some (s.fault.getD .mixedWidth) }

/-! ## The step -/

/-- The model's form of R210 (log 1 and log 2, DESIGN CHOICE): with SEQ next in the schedule and a command's bytes
first in `input`, the idle sequencer's step is that command's meaning, on the state with the bytes and the schedule's
first entry taken; that one step answers a whole `exec` is the model's, not the spec's. -/
def Obligations.StepRunsDecodedCommand : Prop :=
  ∀ (s : State) (i : Instr) (rest : List Byte) (ags : List Agent), configOk s.cfg = true → s.pc = .idle →
    s.sched = .seq :: ags → terminationDue s = false → decode s.input = .command i rest →
    step s = exec i { s with sched := ags, input := rest }

/-- The model's form of R14, R23 and R210: while a command is in progress a step is one step of the agent at the
head of the schedule (log 2, DESIGN CHOICE: the rules order no agents), and the meaning of a further command refuses it
by name (log 26, DEDUCED: R210 says only when HOST hands a command over). -/
def Obligations.StepMovesScheduledAgent : Prop :=
  (∀ (s : State) (a : Agent) (ags : List Agent), configOk s.cfg = true → s.pc ≠ .idle →
      s.sched = a :: ags → step s = agentStep a { s with sched := ags })
    ∧ ∀ (s : State) (i : Instr), s.pc ≠ .idle → exec i s = .refused .commandInProgress

/-- R13, R23 (the model's own form, log 1): performing a command with labelled steps in one step gives the
state that single steps of the agents reach one after another. -/
def Obligations.CommandRunsStepByStep : Prop :=
  ∀ (s t : State) (pc : Pc), configOk s.cfg = true → pc ≠ .idle → performFrom pc s = .next t →
    ∃ k, k ≤ s.sched.length ∧ Host.Core.run Sys2Proof.core k (s.setPc pc) = .next t

/-- 60_exceptions.md R280: a reserved opcode is answered ILLEGAL_COMMAND(UNKNOWN_OPCODE) and changes nothing
else, except in Halted, where it gives HALTED. -/
def Obligations.ReservedOpcodeAnswered : Prop :=
  ∀ (s : State) (op : Byte) (rest : List Byte) (ags : List Agent), configOk s.cfg = true → s.pc = .idle →
    s.sched = .seq :: ags → terminationDue s = false → s.input = op :: rest →
    (op.toNat = 0 ∨ 9 ≤ op.toNat) →
    responseBytes { status := .illegalCommand, detail := .unknownOpcode, payload := [] } = [0x06, 0x50]
      ∧ step s = .next { s with
      sched := ags
      input := rest
      resp := if s.life = .halted then { status := .halted, detail := .terminated, payload := [] }
        else { status := .illegalCommand, detail := .unknownOpcode, payload := [] } }

/-- R284: the idle sequencer serves a pending termination request first: a Ready block begins CLEANUP's
steps, an Unconfigured one is Halted; no response is written. -/
def Obligations.TerminationServedFirst : Prop :=
  ∀ (s : State) (ags : List Agent), configOk s.cfg = true → s.pc = .idle → s.sched = .seq :: ags →
    s.termPending = true →
    (s.life = .ready → step s = .next { s with sched := ags, pc := .terminate (.c1 .fill) })
      ∧ (s.life = .unconfigured → step s = .next { s with sched := ags, life := .halted })

/-- R284, R285, R326 (premise: the one schedule `cleanupSchedule`, log 2, which meets NO_UNDERRUN, R322, and
fairness, R323): the cleanup that serves a termination request, run to its end, blanks the strip, gives everything
back and leaves the block Halted; the response stays that of the last command, and no model fault is recorded. -/
def Obligations.TerminationCleansUp : Prop :=
  ∀ s : State, ReadyToSend s →
    ∃ t, drive (cleanupSchedule s.capacity) (s.setPc (.terminate (.c1 .fill))) = .next (t, [])
      ∧ t.pc = .idle ∧ t.life = .halted ∧ HoldsNothing t ∧ platShape t.plat = emptyShape
      ∧ t.resp = s.resp ∧ t.termPending = s.termPending ∧ t.dma.phase = .stopped ∧ t.fifo = []
      ∧ t.fault = s.fault ∧ (s.fault = none → GoodFinal t)
      ∧ t.out = s.out ++ frameCycles s
          (List.replicate (24 * s.ledCount) s.markZero ++ List.replicate s.resetGapLength 0)

/-- R285: in Halted no step leaves Halted, and none writes anything of the block's own record (R20) but the
response, which can only become {HALTED, TERMINATED, []}, and the termination flag, which is HOST's (R29); the agents go
on. No model fault is recorded either, with the channel stopped, as it is in every Halted state a run reaches. -/
def Obligations.HaltedIsTerminal : Prop :=
  ∀ s t : State, s.life = .halted → s.pc = .idle → step s = .next t →
    t.life = .halted ∧ t.pc = .idle
      ∧ (t.resp = s.resp ∨ t.resp = { status := .halted, detail := .terminated, payload := [] })
      ∧ t.ledCount = s.ledCount ∧ t.fb = s.fb ∧ t.mapped = s.mapped ∧ t.region = s.region
      ∧ t.capacity = s.capacity ∧ t.stage = s.stage ∧ t.dmaState = s.dmaState ∧ t.pin = s.pin ∧ t.ch = s.ch
      ∧ t.div = s.div ∧ t.range = s.range ∧ t.markZero = s.markZero ∧ t.markOne = s.markOne
      ∧ t.resetGapLength = s.resetGapLength ∧ (s.dma.phase = .stopped → t.fault = s.fault)
      ∧ (s.termPending = true → t.termPending = true)
      ∧ t.gpio = s.gpio ∧ t.pwm = s.pwm ∧ t.mem = s.mem ∧ t.plat = s.plat

/-! ## The lifecycle gate -/

/-- 43_encoder_commands.md R211: what each command does in each lifecycle state; a gate outcome other than
"perform" writes only the response, whose bytes are those of R94, R277 and R278. -/
def Obligations.LifecycleGate : Prop :=
  (∀ s : State, s.pc = .idle →
    (s.life = .halted → ∀ i : Instr,
        exec i s = .next { s with resp := { status := .halted, detail := .terminated, payload := [] } })
      ∧ (s.life = .unconfigured →
          (∀ i : Instr, (i = .send ∨ i = .clearAll ∨ i = .encode ∨ (∃ x r g b, i = .setColor x r g b)
              ∨ ∃ x h sat v, i = .setColorHsb x h sat v) →
            exec i s = .next { s with resp := { status := .notSetUp, detail := .notReady, payload := [] } })
          ∧ exec .cleanup s = .next { s with resp := { status := .ok, detail := .none, payload := [] } }
          ∧ (∀ pin n, exec (.setup pin n) s = performFrom (.setup pin n .s1) s))
      ∧ (s.life = .ready →
          (∀ pin n, exec (.setup pin n) s
            = .next { s with resp := { status := .allocationError, detail := .alreadyAllocated, payload := [] } })
          ∧ exec .send s = performFrom (.send .e1) s
          ∧ exec .clearAll s = performFrom (.clearAll .fill) s
          ∧ exec .cleanup s = performFrom (.cleanup (.c1 .fill)) s
          ∧ exec .encode s = .next (endCommand (encodePayload s) s)
          ∧ (∀ x r g b, exec (.setColor x r g b) s = .next (endCommand [] (setEntry x r g b s)))
          ∧ (∀ x h sat v, exec (.setColorHsb x h sat v) s = .next (endCommand [] (setEntry x
              (hsbColor h sat v).1 (hsbColor h sat v).2.1 (hsbColor h sat v).2.2 s))))
      ∧ (s.life ≠ .halted → ∀ h sat v,
          exec (.hsbToRgb h sat v) s = .next (endCommand (rgbBytes (hsbColor h sat v)) s)))
    ∧ responseBytes { status := .halted, detail := .terminated, payload := [] } = [0x07, 0x60]
    ∧ responseBytes { status := .notSetUp, detail := .notReady, payload := [] } = [0x05, 0x40]
    ∧ responseBytes { status := .allocationError, detail := .alreadyAllocated, payload := [] } = [0x02, 0x20]
    ∧ responseBytes { status := .ok, detail := .none, payload := [] } = [0x00, 0x00]

/-! ## The commands that take one step -/

/-- R216: SET_COLOR clamps each channel to 0..255 and writes the packed colour into `fb[index]` if
0 ≤ index < ledCount, else nothing; the status is OK, and only `fb[index]` and the response are written. -/
def Obligations.SetColorWritesEntry : Prop :=
  ∀ (s : State) (index r g b : Int), s.pc = .idle → s.life = .ready →
    opcode (.setColor index r g b) = 0x02 ∧ (encode (.setColor index r g b)).length = 17
      ∧ exec (.setColor index r g b) s = .next { s with
          fb := if 0 ≤ index ∧ index < (s.ledCount : Int) then
              s.fb.set index.toNat (pack s.cfg.wireOrder (min (max r 0) 255) (min (max g 0) 255) (min (max b 0) 255))
            else s.fb
          resp := { status := .ok, detail := .none, payload := [] } }

/-- R218: SET_COLOR_HSB clamps hue to 0..359 and saturation and brightness to 0..255, converts, and performs
SET_COLOR with the result, its index check included. -/
def Obligations.SetColorHsbDelegates : Prop :=
  ∀ (s : State) (index hue sat value : Int), s.pc = .idle → s.life = .ready →
    let c := hsbToRgb (min (max hue 0) 359) (min (max sat 0) 255) (min (max value 0) 255)
    opcode (.setColorHsb index hue sat value) = 0x03 ∧ (encode (.setColorHsb index hue sat value)).length = 17
      ∧ exec (.setColorHsb index hue sat value) s = exec (.setColor index c.1 c.2.1 c.2.2) s
      ∧ exec (.setColorHsb index hue sat value) s = .next { s with
          fb := if 0 ≤ index ∧ index < (s.ledCount : Int) then
              s.fb.set index.toNat (pack s.cfg.wireOrder c.1 c.2.1 c.2.2)
            else s.fb
          resp := { status := .ok, detail := .none, payload := [] } }

/-- R216, R218, R229, R252: whenever they give a next state, SET_COLOR and SET_COLOR_HSB change nothing but one
entry of the framebuffer and the response, and ENCODE and HSB_TO_RGB nothing but the response: no register, no flag, no
byte of memory, no other entry. -/
def Obligations.OneStepCommandsFrame : Prop :=
  (∀ (s t : State) (i : Instr) (index : Int),
    ((∃ r g b, i = .setColor index r g b) ∨ ∃ h sat v, i = .setColorHsb index h sat v) →
    exec i s = .next t →
    t = { s with fb := t.fb, resp := t.resp } ∧ t.fb.length = s.fb.length
      ∧ (∀ k : Nat, (k : Int) ≠ index → t.fb[k]? = s.fb[k]?)
      ∧ ((index < 0 ∨ (s.ledCount : Int) ≤ index) → t.fb = s.fb)
      ∧ ∀ a, memByte t.mem a = memByte s.mem a)
    ∧ ∀ (s t : State) (i : Instr), (i = .encode ∨ ∃ h sat v, i = .hsbToRgb h sat v) → exec i s = .next t →
        t = { s with resp := t.resp } ∧ ∀ a, memByte t.mem a = memByte s.mem a

/-- R229: ENCODE answers OK with the element count as a u32, least significant byte first, and then W, and
writes only the response; its bytes are 00 00 and then the payload (R94). -/
def Obligations.EncodeAnswersWaveform : Prop :=
  ∀ s : State, s.pc = .idle → s.life = .ready →
    opcode .encode = 0x07 ∧ (encode .encode).length = 1
      ∧ exec .encode s = .next { s with
          resp := { status := .ok, detail := .none,
                    payload := wordBytes (BitVec.ofNat 32 (waveform s).length) ++ waveform s } }
      ∧ (BuffersFit s → (waveform s).length = s.capacity)
      ∧ ∀ p : List Byte, responseBytes { status := .ok, detail := .none, payload := p } = 0x00 :: 0x00 :: p

/-- R252: HSB_TO_RGB clamps its operands, answers OK with r, g and b, one byte each, and writes only the
response; it is performed in Unconfigured and in Ready, and gives HALTED in Halted. -/
def Obligations.HsbToRgbAnswersColor : Prop :=
  ∀ (s : State) (h sat v : Int), s.pc = .idle →
    opcode (.hsbToRgb h sat v) = 0x08 ∧ (encode (.hsbToRgb h sat v)).length = 13
      ∧ (s.life ≠ .halted → exec (.hsbToRgb h sat v) s = .next { s with
          resp := { status := .ok, detail := .none,
                    payload := rgbBytes (hsbToRgb (min (max h 0) 359) (min (max sat 0) 255) (min (max v 0) 255)) } })
      ∧ (s.life = .halted → exec (.hsbToRgb h sat v) s = .next { s with
          resp := { status := .halted, detail := .terminated, payload := [] } })
      ∧ encode (.hsbToRgb 0 255 255)
          = [0x08, 0x00, 0x00, 0x00, 0x00, 0xFF, 0x00, 0x00, 0x00, 0xFF, 0x00, 0x00, 0x00]
      ∧ responseBytes { status := .ok, detail := .none, payload := rgbBytes (hsbToRgb 0 255 255) }
          = [0x00, 0x00, 0xFF, 0x00, 0x00]

/-- 95_test_vectors.md §1.2 (R97, R216, R220, R229): SET_COLOR then ENCODE answers, for the entry set, 24
elements that spell the packed colour, most significant bit first; every other LED's elements are as before. -/
def Obligations.SetColorThenEncode : Prop :=
  ∀ (s : State) (i : Nat) (r g b : Int), s.pc = .idle → s.life = .ready → BuffersFit s → i < s.ledCount →
    ∃ t u, exec (.setColor (i : Int) r g b) s = .next t ∧ exec .encode t = .next u
      ∧ (∀ k, k < 24 → u.resp.payload[4 + 24 * i + k]? = some
          (if (pack s.cfg.wireOrder (clampByte r) (clampByte g) (clampByte b)).getLsbD (23 - k)
            then s.markOne else s.markZero))
      ∧ ∀ j k, j < s.ledCount → j ≠ i → k < 24 →
          u.resp.payload[4 + 24 * j + k]? = (waveform s)[24 * j + k]?

/-! ## SETUP -/

/-- R212, R314 (premises: PLATFORM_OK, and the one schedule `setupSchedule`, log 2, in which the clock stops and the
settle time passes; the bus base is the lock's answer, cut to where the region fits, on a page, logs 3 and 27): SETUP
answers OK, the block is Ready with the operands, the derivation, the region and a black framebuffer, the peripherals
are configured, and the DMA channel, the FIFO, the trace and the staging register are as they were. -/
def Obligations.SetupCompletes : Prop :=
  ∀ (s : State) (pin n : Int) (e : PinEntry) (tm : Timing) (handle lock virt : Nat) (as : List Answer)
    (rest : List Agent),
    configOk s.cfg = true → s.pc = .idle → s.life = .unconfigured → s.region = none →
    ledCountOk s.cfg n = true → lookupPin s.cfg pin = some e → deriveTiming s.cfg = some tm →
    s.cfg.settleUs < 2 ^ 32 → s.exchange = .quiet → s.answers = grantAll handle lock virt ++ as →
    s.sched = setupSchedule s.cfg ++ rest →
    ∃ t, exec (.setup pin n) s = .next t ∧ t.pc = .idle
      ∧ t.resp = { status := .ok, detail := .none, payload := [] } ∧ t.life = .ready
      ∧ t.pin = pin ∧ t.ch = e.ch ∧ (t.ledCount : Int) = n
      ∧ TimingStored t ∧ t.resetGapLength = tm.resetGapLength
      ∧ t.capacity = t.ledCount * 24 + tm.resetGapLength
      ∧ t.mapped = true
      ∧ t.region = some { handle := handle, vbase := virt, bbase := lockBase s.cfg (regionSize s.cfg t.capacity) lock,
                          size := regionSize s.cfg t.capacity }
      ∧ t.fb = List.replicate t.ledCount 0 ∧ t.dmaState = .idle ∧ t.stage = s.stage
      ∧ HardwareReady t ∧ platShape t.plat = fullShape
      ∧ t.dma = s.dma ∧ t.fifo = s.fifo ∧ t.out = s.out ∧ t.mem = s.mem ∧ t.fault = s.fault
      ∧ (s.fault = none → GoodFinal t) ∧ t.exchange = .quiet ∧ t.answers = as ∧ t.sched = rest

/-- R212, R214, R281: S1 is checked before S2 and S2 before S3, and each failure answers its
CONFIGURATION_ERROR and changes nothing else. -/
def Obligations.SetupBadArguments : Prop :=
  ∀ (s : State) (pin n : Int) (rest : List Agent), s.pc = .idle → s.life = .unconfigured →
    (ledCountOk s.cfg n = false → s.sched = seqSteps 1 ++ rest →
      exec (.setup pin n) s = .next { s with
        sched := rest, resp := { status := .configurationError, detail := .ledCount, payload := [] } })
    ∧ (ledCountOk s.cfg n = true → lookupPin s.cfg pin = none → s.sched = seqSteps 2 ++ rest →
      exec (.setup pin n) s = .next { s with
        sched := rest, resp := { status := .configurationError, detail := .pin, payload := [] } })
    ∧ (ledCountOk s.cfg n = true → lookupPin s.cfg pin ≠ none → deriveTiming s.cfg = none →
      s.sched = seqSteps 3 ++ rest →
      exec (.setup pin n) s = .next { s with
        sched := rest, resp := { status := .configurationError, detail := .timing, payload := [] } })
    ∧ responseBytes { status := .configurationError, detail := .ledCount, payload := [] } = [0x03, 0x01]
    ∧ responseBytes { status := .configurationError, detail := .pin, payload := [] } = [0x03, 0x02]
    ∧ responseBytes { status := .configurationError, detail := .timing, payload := [] } = [0x03, 0x03]

/-- R137, R139, R171, R172, R281 (premise: the schedules `refusedSchedule` and `busySchedule`, log 2): when
PLATFORM refuses a request of SETUP, the answer is the status and detail of that request, in the order of the requests,
and nothing is held afterwards; when the clock stays busy for BUSY_TIMEOUT_US the answer is
CONFIGURATION_ERROR(CLOCK_BUSY_TIMEOUT), nothing is held, and the writes of K1 to K3 remain. -/
def Obligations.SetupReportsFailures : Prop :=
  (∀ (s : State) (pin n : Int) (e : PinEntry) (tm : Timing) (oks as : List Answer) (bad : Answer)
    (rest : List Agent) (err : Status × Detail),
    configOk s.cfg = true → s.pc = .idle → s.life = .unconfigured → HoldsNothing s →
    platShape s.plat = emptyShape → s.exchange = .quiet →
    ledCountOk s.cfg n = true → lookupPin s.cfg pin = some e → deriveTiming s.cfg = some tm →
    s.cfg.settleUs < 2 ^ 32 → requestErrors[oks.length]? = some err → (∀ a ∈ oks, a.ok = true) →
    bad.ok = false → s.answers = oks ++ bad :: as → s.sched = refusedSchedule s.cfg oks.length ++ rest →
    ∃ t, exec (.setup pin n) s = .next t ∧ t.pc = .idle
      ∧ t.resp = { status := err.1, detail := err.2, payload := [] }
      ∧ t.life = .unconfigured ∧ HoldsNothing t ∧ platShape t.plat = emptyShape ∧ t.exchange = .quiet
      ∧ t.fault = s.fault ∧ t.answers = as ∧ t.sched = rest)
    ∧ (∀ (s : State) (pin n : Int) (e : PinEntry) (tm : Timing) (oks as : List Answer) (rest : List Agent),
      configOk s.cfg = true → s.pc = .idle → s.life = .unconfigured → HoldsNothing s →
      platShape s.plat = emptyShape → s.exchange = .quiet →
      ledCountOk s.cfg n = true → lookupPin s.cfg pin = some e → deriveTiming s.cfg = some tm →
      s.cfg.busyTimeoutUs < 2 ^ 32 → s.cm.busy = true → oks.length = 6 → (∀ a ∈ oks, a.ok = true) →
      s.answers = oks ++ as → s.sched = busySchedule s.cfg ++ rest →
      ∃ t, exec (.setup pin n) s = .next t ∧ t.pc = .idle
        ∧ t.resp = { status := .configurationError, detail := .clockBusyTimeout, payload := [] }
        ∧ t.life = .unconfigured ∧ HoldsNothing t ∧ platShape t.plat = emptyShape
        ∧ readFsel t e.pin = e.fsel ∧ GroupConfigured (t.pwm.channel e.ch) ∧ (t.pwm.channel e.ch).pwen = false
        ∧ t.cm = { s.cm with src := s.cfg.clkSrc, enab := false }
        ∧ t.fault = s.fault ∧ t.answers = as ∧ t.sched = rest)
    ∧ requestErrors.map (fun err => responseBytes { status := err.1, detail := err.2, payload := [] })
        = [[0x01, 0x10], [0x01, 0x11], [0x01, 0x12], [0x01, 0x13], [0x01, 0x14], [0x01, 0x15],
            [0x02, 0x21], [0x02, 0x22], [0x02, 0x23], [0x02, 0x24]]
    ∧ responseBytes { status := .configurationError, detail := .clockBusyTimeout, payload := [] } = [0x03, 0x04]

/-- R213, R271, R314, R316: under every schedule and every answer of PLATFORM, a SETUP that ends has either
succeeded, with everything held, or holds nothing, in the block or at PLATFORM, and answers one of SETUP's errors. -/
def Obligations.SetupAllOrNothing : Prop :=
  ∀ (s t : State) (pin n : Int), configOk s.cfg = true → s.pc = .idle → s.life = .unconfigured →
    HoldsNothing s → platShape s.plat = emptyShape → exec (.setup pin n) s = .next t → t.pc = .idle →
    (t.resp = { status := .ok, detail := .none, payload := [] } ∧ HoldsAll t ∧ t.pin = pin
        ∧ (t.ledCount : Int) = n)
      ∨ ((t.resp.status, t.resp.detail) ∈ setupErrors ∧ t.resp.payload = [] ∧ t.life = .unconfigured
          ∧ HoldsNothing t ∧ platShape t.plat = emptyShape)

/-- R34, R36, R137, R213: under every schedule, SETUP leaves alone every pin's function but its own pin's,
the other PWM channel, the staging register and the DMA channel's registers; while it has not succeeded, also the
block's configuration registers and framebuffer; no byte of memory is stored to, and bytes are lost only where a
refused lock or map gave the allocation back (R171 A3, A4; that a freed region's bytes are gone is log 7). -/
def Obligations.SetupFrame : Prop :=
  ∀ (s t : State) (pin n : Int), exec (.setup pin n) s = .next t →
    t.cfg = s.cfg ∧ t.stage = s.stage ∧ t.input = s.input ∧ (s.termPending = true → t.termPending = true)
      ∧ (∀ p : Nat, (∀ e, lookupPin s.cfg pin = some e → p ≠ e.pin) → readFsel t p = readFsel s p)
      ∧ t.gpio.gpset = s.gpio.gpset ∧ t.gpio.gpclr = s.gpio.gpclr
      ∧ (∀ c : Channel, (∀ e, lookupPin s.cfg pin = some e → c ≠ e.ch) → t.pwm.channel c = s.pwm.channel c)
      ∧ t.dma.conblkAd = s.dma.conblkAd ∧ t.dma.priority = s.dma.priority ∧ t.dma.err = s.dma.err
      ∧ (t.life ≠ .ready → t.pin = s.pin ∧ t.ch = s.ch ∧ t.ledCount = s.ledCount ∧ t.capacity = s.capacity
          ∧ t.fb = s.fb)
      ∧ (t.mem = s.mem
          ∨ (t.mem = [] ∧ t.pc = .idle ∧ t.plat.alloc = none ∧ t.resp.status = .allocationError
              ∧ (t.resp.detail = .lock ∨ t.resp.detail = .map)))

/-! ## SEND, CLEAR_ALL, CLEANUP -/

/-- R145, R178, R220, R221, R222 (premise: the one schedule `sendSchedule`, log 2, which meets NO_UNDERRUN): from a
state ready to send, SEND answers OK; the trace gains exactly W's marks in order; the region holds the control block
and W's words; the channel is stopped, the FIFO empty; and the framebuffer is unchanged. -/
def Obligations.SendCompletes : Prop :=
  ∀ (s : State) (rest : List Agent), ReadyToSend s → s.sched = sendSchedule s.capacity ++ rest →
    ∃ t, exec .send s = .next t ∧ t.pc = .idle ∧ t.resp = { status := .ok, detail := .none, payload := [] }
      ∧ t.out = s.out ++ frameCycles s (waveform s)
      ∧ t.stage = waveform s ∧ t.fb = s.fb ∧ t.dma.phase = .stopped ∧ t.fifo = [] ∧ t.dmaState = .idle
      ∧ (∀ r, s.region = some r →
          (∀ i e, (waveform s)[i]? = some e → getWord r (32 + 4 * i) t.mem = some (sourceWord e))
            ∧ ∃ source, busAddr r 32 = some source
              ∧ ∀ j w, ([tiValue s.cfg, source, fifoBus s.cfg, BitVec.ofNat 32 (4 * (waveform s).length),
                  0, 0, 0, 0] : List Word)[j]? = some w → getWord r (4 * j) t.mem = some w)
      ∧ t.fault = s.fault ∧ (s.fault = none → GoodFinal t) ∧ t.dma.err = 0 ∧ t.dma.priority = s.cfg.dmaPriority
      ∧ HoldsAll t ∧ HardwareReady t ∧ t.sched = rest

/-- R145, R222 (c), R322: under every schedule, a SEND from a state ready to send that ends has put W's
cycles on the pin in order, with nothing between, before or after them but low cycles of an empty FIFO. -/
def Obligations.SendEmitsFrameUnderAnySchedule : Prop :=
  ∀ s t : State, ReadyToSend s → exec .send s = .next t → t.pc = .idle →
    t.resp = { status := .ok, detail := .none, payload := [] }
      ∧ ∃ tail, t.out = s.out ++ tail
        ∧ (frameCycles s (waveform s)).Sublist tail
        ∧ tail.filter (fun c => c.mark ≠ 0) = (frameCycles s (waveform s)).filter (fun c => c.mark ≠ 0)
        ∧ ∀ c ∈ tail, c.range = s.range

/-- R75, R185, R290: under every schedule, SEND from a state ready to send never stops the machine and
records no model fault. -/
def Obligations.SendNeverStops : Prop :=
  ∀ s : State, ReadyToSend s → ∃ t, exec .send s = .next t ∧ t.fault = s.fault

/-- R182, R323: in every run that is weakly fair for the DMA, the PWM and the TIMER, and in which SEQ goes on, the
command in progress ends, from every state in order, whatever the FIFO holds: SEND and CLEAR_ALL in Ready and CLEANUP in
Unconfigured, with OK; the cleanup of a termination request in Halted; and SETUP, with PLATFORM fair and SEQ prompt
(log 23), in Ready with OK or in Unconfigured with one of its errors. -/
def Obligations.CommandsEndInFairRuns : Prop :=
  ∀ (s : State) (run : Nat → State) (moved : Nat → Agent), InOrder s → run 0 = s → FairRun run moved →
    ((∃ pin n st, s.pc = .setup pin n st) → SetupFair s.cfg run moved) →
    ∃ n, (run n).pc = .idle ∧ InOrder (run n)
      ∧ ((∃ e, s.pc = .send e) ∨ (∃ e, s.pc = .clearAll e) →
          (run n).life = .ready ∧ (run n).resp = { status := .ok, detail := .none, payload := [] })
      ∧ ((∃ e, s.pc = .cleanup e) →
          (run n).life = .unconfigured ∧ (run n).resp = { status := .ok, detail := .none, payload := [] })
      ∧ ((∃ e, s.pc = .terminate e) → (run n).life = .halted)
      ∧ ((∃ pin m st, s.pc = .setup pin m st) →
          ((run n).life = .ready ∧ (run n).resp = { status := .ok, detail := .none, payload := [] })
            ∨ ((run n).life = .unconfigured ∧ ((run n).resp.status, (run n).resp.detail) ∈ setupErrors))

/-- R137, R139, R181, R182, R323: in every fair run each WAIT_IDLE ends; K7's settle wait ends; and K4 ends, with
CONFIGURATION_ERROR(CLOCK_BUSY_TIMEOUT) if the CLK agent's step never happens. For K4 and K7 SEQ is prompt: the bound on
TIMER steps between its own, without which CLO can wrap unseen, is the model's (log 23, DEDUCED). -/
def Obligations.WaitsEndInFairRuns : Prop :=
  ∀ (s : State) (run : Nat → State) (moved : Nat → Agent), InOrder s → run 0 = s → FairRun run moved →
    (∀ w, (s.pc = .send (.e2 w) → ∃ n, (run n).pc = .send (.e3 .x1))
        ∧ (s.pc = .send (.e4 w) → ∃ n, (run n).pc = .idle)
        ∧ (s.pc = .cleanup (.c2 (.l1 w)) → ∃ n, (run n).pc = .cleanup (.c2 .l2)))
      ∧ ∀ (g : Nat) (pin m : Int) (e : PinEntry), PromptSeq g run moved →
          (∀ t1, s.cfg.settleUs + g ≤ 2 ^ 32 → s.pc = .setup pin m (.s5 e (.k7Wait t1)) →
            ∃ n, (run n).pc = .setup pin m (.s5 e .k8))
          ∧ ∀ t0, s.cfg.busyTimeoutUs + 2 * g ≤ 2 ^ 32 → s.pc = .setup pin m (.s5 e (.k4Busy t0)) →
              let timeout := ∃ n, (run n).pc = .idle ∧ (run n).life = .unconfigured
                ∧ (run n).resp = { status := .configurationError, detail := .clockBusyTimeout, payload := [] }
              ((∃ n, (run n).pc = .setup pin m (.s5 e .k5)) ∨ timeout)
                ∧ (s.cm.busy = true → (∀ n, moved n ≠ .clk) → timeout)

/-- R222 (b): under every schedule, when a SEND or a CLEAR_ALL that was performed ends with OK, the DMA
channel is stopped and the FIFO is empty. -/
def Obligations.TransferEndsIdle : Prop :=
  ∀ (s t : State) (i : Instr), (i = .send ∨ i = .clearAll) → s.life = .ready → exec i s = .next t →
    t.pc = .idle → t.resp.status = .ok →
    t.dma.phase = .stopped ∧ t.fifo = [] ∧ t.dmaState = .idle

/-- R221, R224: under every schedule, SEND and CLEAR_ALL leave the configuration, the lifecycle, the timing
and resource registers, GPIO, the PWM's registers and PLATFORM alone; SEND also the framebuffer; and every byte of
memory outside the control block and the SourceBuffer words of the frame reads as before. -/
def Obligations.TransferFrame : Prop :=
  ∀ (s t : State) (i : Instr), (i = .send ∨ i = .clearAll) → exec i s = .next t →
    t.cfg = s.cfg ∧ t.life = s.life ∧ t.pin = s.pin ∧ t.ch = s.ch ∧ t.ledCount = s.ledCount
      ∧ t.div = s.div ∧ t.range = s.range ∧ t.markZero = s.markZero ∧ t.markOne = s.markOne
      ∧ t.resetGapLength = s.resetGapLength ∧ t.mapped = s.mapped ∧ t.region = s.region
      ∧ t.capacity = s.capacity ∧ t.gpio = s.gpio ∧ t.pwm = s.pwm ∧ t.plat = s.plat ∧ t.input = s.input
      ∧ (s.exchange = .quiet → t.exchange = .quiet ∧ t.answers = s.answers)
      ∧ (s.cm.enab = true → t.cm = s.cm ∧ t.clk = s.clk)
      ∧ (s.termPending = true → t.termPending = true)
      ∧ (i = .send → t.fb = s.fb)
      ∧ (i = .clearAll → t.fb = s.fb ∨ t.fb = List.replicate s.ledCount 0)
      ∧ ∀ a, (∀ r, s.region = some r → ∀ off,
            off < 32 + 4 * capacityFor (if i = .send then s.fb.length else s.ledCount) s.resetGapLength →
            a ≠ cellOf r off) →
          memByte t.mem a = memByte s.mem a

/-- R224, R225 (premise: the one schedule `clearSchedule`, log 2, which meets NO_UNDERRUN, R322): CLEAR_ALL
blackens every LED and sends: whatever the framebuffer held, the frame is markZero
for every bit of every LED, then the reset gap. -/
def Obligations.ClearAllCompletes : Prop :=
  ∀ (s : State) (rest : List Agent), ReadyToSend s → s.sched = clearSchedule s.capacity ++ rest →
    ∃ t, exec .clearAll s = .next t ∧ t.pc = .idle
      ∧ t.resp = { status := .ok, detail := .none, payload := [] }
      ∧ t.fb = List.replicate s.ledCount 0
      ∧ t.stage = List.replicate (24 * s.ledCount) s.markZero ++ List.replicate s.resetGapLength 0
      ∧ t.out = s.out ++ frameCycles s
          (List.replicate (24 * s.ledCount) s.markZero ++ List.replicate s.resetGapLength 0)
      ∧ t.dma.phase = .stopped ∧ t.fifo = [] ∧ t.dmaState = .idle ∧ t.fault = s.fault
      ∧ (s.fault = none → GoodFinal t) ∧ HoldsAll t ∧ HardwareReady t ∧ t.sched = rest

/-- R188, R226, R228, R315 (premise: the one schedule `cleanupSchedule`, log 2, which meets NO_UNDERRUN, R322):
CLEANUP sends the black frame, gives everything back and returns the block to Unconfigured; the clock keeps running,
and the PWM's registers and the pin's function keep their values; the freed region's bytes are gone (log 7). -/
def Obligations.CleanupCompletes : Prop :=
  ∀ (s : State) (rest : List Agent), ReadyToSend s → s.sched = cleanupSchedule s.capacity ++ rest →
    ∃ t, exec .cleanup s = .next t ∧ t.pc = .idle
      ∧ t.resp = { status := .ok, detail := .none, payload := [] }
      ∧ t.life = .unconfigured ∧ HoldsNothing t ∧ platShape t.plat = emptyShape ∧ t.mem = []
      ∧ t.dmaState = .idle ∧ t.dma.phase = .stopped ∧ t.fifo = []
      ∧ t.stage = List.replicate (24 * s.ledCount) s.markZero ++ List.replicate s.resetGapLength 0
      ∧ t.out = s.out ++ frameCycles s
          (List.replicate (24 * s.ledCount) s.markZero ++ List.replicate s.resetGapLength 0)
      ∧ t.clk = s.clk ∧ t.cm = s.cm ∧ t.pwm = s.pwm ∧ t.gpio = s.gpio ∧ t.fault = s.fault
      ∧ (s.fault = none → GoodFinal t) ∧ t.sched = rest

/-- R226: under every schedule, CLEANUP leaves the configuration, the pin, channel and timing registers, GPIO
and the PWM's registers alone, and a running clock keeps running; bytes of memory outside the black frame's
control block and words read as before, until the region is freed (a freed region's bytes are gone, log 7). -/
def Obligations.CleanupFrame : Prop :=
  ∀ s t : State, exec .cleanup s = .next t →
    t.cfg = s.cfg ∧ t.pin = s.pin ∧ t.ch = s.ch ∧ t.div = s.div ∧ t.range = s.range
      ∧ t.markZero = s.markZero ∧ t.markOne = s.markOne ∧ t.resetGapLength = s.resetGapLength
      ∧ t.gpio = s.gpio ∧ t.pwm = s.pwm ∧ t.input = s.input
      ∧ (s.exchange = .quiet → t.exchange = .quiet ∧ t.answers = s.answers)
      ∧ (s.cm.enab = true → t.cm = s.cm ∧ t.clk = s.clk)
      ∧ (s.termPending = true → t.termPending = true)
      ∧ ((t.mem = [] ∧ t.plat.alloc = none) ∨ ∀ a, (∀ r, s.region = some r → ∀ off,
            off < 32 + 4 * capacityFor s.ledCount s.resetGapLength → a ≠ cellOf r off) →
          memByte t.mem a = memByte s.mem a)

/-- 42_dma_sequencer.md R176, R177: TRANSMIT with no region raises NOT_SET_UP(NO_REGION), and with more
elements than the capacity raises CAPACITY_ERROR(PAYLOAD_TOO_LONG), and writes nothing. -/
def Obligations.TransmitGuards : Prop :=
  ∀ s : State,
    (s.region = none → transmitStep .x1 s = .raise .notSetUp .noRegion s)
      ∧ (s.region ≠ none → transmitStep .x1 s = .goto .x2 s)
      ∧ (s.capacity < s.stage.length → transmitStep .x2 s = .raise .capacityError .payloadTooLong s)
      ∧ (s.stage.length ≤ s.capacity → ∃ x, transmitStep .x2 s = .goto x s)
      ∧ responseBytes { status := .notSetUp, detail := .noRegion, payload := [] } = [0x05, 0x41]
      ∧ responseBytes { status := .capacityError, detail := .payloadTooLong, payload := [] } = [0x04, 0x30]

/-! ## The agents -/

/-- 41_bit_timer.md R141, R142, R143, 10_state.md R36: with PWEN, USEF and MSEN of the strip's channel 1, MODE PWM
(log 29, DEDUCED from R36) and the generator running, a PWM step emits one cycle with the range in force: the head
word, saturated at the range (of R142's two options the model's choice, log 11), is popped and is the mark; from an
empty FIFO the mark is 0, whatever POLA, SBIT and RPTL hold (log 32, DESIGN CHOICE: R36 gives only the meaning of
their 0). Otherwise the step changes nothing (log 6, DEDUCED). -/
def Obligations.PwmCycleStep : Prop :=
  ∀ s : State,
    let x := s.pwm.channel s.ch
    (x.pwen = true ∧ x.usef = true ∧ x.msen = true ∧ x.mode = .pwm ∧ s.clk.running = true →
      (∀ w ws, s.fifo = w :: ws → agentStep .pwm s = .next { s with
          fifo := ws, out := s.out ++ [{ mark := BitVec.ofNat 32 (min w.toNat x.rng.toNat), range := x.rng }] })
      ∧ (s.fifo = [] → agentStep .pwm s = .next { s with out := s.out ++ [{ mark := 0, range := x.rng }] }))
    ∧ (¬ (x.pwen = true ∧ x.usef = true ∧ x.msen = true ∧ x.mode = .pwm ∧ s.clk.running = true) →
        agentStep .pwm s = .next s)

/-- R38, R183, R184 (MOVE and END): a running channel with words left moves the next source word to the FIFO's tail
when DREQ is asserted (and FIF1 is aligned in its block, R63), waits when it is not, and stops after the last word.
That DREQ compares with the register DMAC.DREQ is log 15 (DEDUCED from R38), that a turn without an enabled step
changes nothing is log 6 (DEDUCED), and that the source address does not wrap is R11 (log 27, DEDUCED). -/
def Obligations.DmaMovesWords : Prop :=
  ∀ s : State, s.dma.phase = .running →
    (s.dma.next < s.dma.cb.length.toNat / 4 →
      (s.pwm.dmacEnab = true → s.fifo.length < s.pwm.dmacDreq → fifoInBlock s.cfg = true →
          ∀ (r : Region) (off : Nat) (w : Word),
          s.region = some r → r.has off 4 = true → off % 4 = 0 → getWord r off s.mem = some w →
          s.dma.cb.source.toNat + 4 * s.dma.next = r.bbase.toNat + off →
          agentStep .dma s = .next { s with
            fifo := s.fifo ++ [w], dma := { s.dma with next := s.dma.next + 1 } })
      ∧ (s.pwm.dmacEnab = false ∨ s.pwm.dmacDreq ≤ s.fifo.length → agentStep .dma s = .next s))
    ∧ (s.dma.next = s.dma.cb.length.toNat / 4 →
        agentStep .dma s = .next { s with dma := { s.dma with phase := .stopped } })

/-- R184 (START), R185: a write of CS to a stopped channel loads the control block at CONBLK_AD once; with
TRANSMIT's TI, DEST_AD, NEXTCONBK and a positive multiple of 4 as length it runs from word 0, and with any other
it records UNSUPPORTED_CB and does not run (R30, R290). That the unsupported block is loaded all the same is log 25,
and that an earlier fault stays is log 12 (both DEDUCED). -/
def Obligations.DmaStartLoadsBlock : Prop :=
  ∀ (s : State) (p : Nat) (cb : ControlBlock), s.mapped = true → regInBlock s.cfg .dmaCs = true →
    s.dma.phase = .stopped → loadBlock s.dma.conblkAd (writePriority p s) = .ok (.block cb) →
    ((cb.ti = tiValue s.cfg ∧ cb.dest = fifoBus s.cfg ∧ cb.next = 0 ∧ 0 < cb.length.toNat
        ∧ cb.length.toNat % 4 = 0) →
      csWrite p s = .ok { s with dma := { s.dma with priority := p, cb := cb, next := 0, phase := .running } })
    ∧ (¬ (cb.ti = tiValue s.cfg ∧ cb.dest = fifoBus s.cfg ∧ cb.next = 0 ∧ 0 < cb.length.toNat
        ∧ cb.length.toNat % 4 = 0) →
      csWrite p s = .ok { s with
        dma := { s.dma with priority := p, cb := cb, next := 0 }
        fault := some (s.fault.getD .unsupportedCb) })

/-- 10_state.md R40, R29, R45, 20_memory.md R75: TIMER.CLO goes up by one, modulo 2^32, in the TIMER agent's step
and in no other agent's; HOST's step raises the termination flag or hands bytes over, and no other agent's writes what
is HOST's; PLATFORM's step answers a request; the DMA's only reads the region; only the PWM's adds to the trace; the
CLK agent clears BUSY and stops the generator when ENAB is 0 and does nothing when it is 1 (log 14 and log 6, DEDUCED:
R31 and R140 can be read otherwise). -/
def Obligations.AgentsOwnTheirState : Prop :=
  ∀ (a : Agent) (s t : State), agentStep a s = .next t →
    (a = .timer → t = { s with clo := BitVec.ofNat 32 (s.clo.toNat + 1) })
      ∧ (a ≠ .timer → t.clo = s.clo)
      ∧ (a = .host → t = { s with termPending := t.termPending, input := t.input, hostActs := t.hostActs,
                                  draws := t.draws }
          ∧ (s.termPending = true → t.termPending = true)
          ∧ (t.input = s.input ∨ (s.pc = .idle ∧ s.input = [] ∧ t.termPending = s.termPending)))
      ∧ (a ≠ .host → t.termPending = s.termPending ∧ t.input = s.input ∧ t.hostActs = s.hostActs)
      ∧ (a = .platform → t = { s with exchange := t.exchange, answers := t.answers, draws := t.draws }
          ∧ ∀ r, s.exchange = .asked r → ∃ answer, t.exchange = .answered answer)
      ∧ (a ≠ .platform → t.answers = s.answers ∧ (a ≠ .seq → t.exchange = s.exchange))
      ∧ (a = .clk → t = if s.cm.enab then s else
          { s with cm := { s.cm with busy := false }, clk := { s.clk with running := false } })
      ∧ (a = .dma → t = { s with fifo := t.fifo, dma := t.dma, fault := t.fault })
      ∧ (a ≠ .dma → a ≠ .seq → t.dma = s.dma)
      ∧ (a ≠ .seq → t.mem = s.mem ∧ t.pc = s.pc ∧ t.plat = s.plat)
      ∧ (a ≠ .pwm → t.out = s.out)

/-! ## Invariants and whole-machine rules -/

/-- R310: power-on, in every field the spec gives a value for (the others are the model's choices, logs 1 to 5, and
are not stated); and every invariant below holds there. The configuration it runs under is the model's choice (log 4). -/
def Obligations.PowerOnValuesAndInvariants : Prop :=
  (State.reset.life = .unconfigured ∧ State.reset.ledCount = 0 ∧ State.reset.pc = .idle
    ∧ State.reset.mapped = false ∧ State.reset.region = none ∧ State.reset.capacity = 0
    ∧ State.reset.dmaState = .idle ∧ State.reset.stage = []
    ∧ State.reset.resp = { status := .ok, detail := .none, payload := [] }
    ∧ State.reset.termPending = false ∧ State.reset.fault = none ∧ State.reset.fb = []
    ∧ State.reset.dma.phase = .stopped ∧ State.reset.dma.next = 0 ∧ State.reset.out = [])
  ∧ Memory.wf State.reset.mem = true ∧ Sound State.reset ∧ ResourcesMatch State.reset
    ∧ HardwareMatches State.reset ∧ SingleWriter State.reset ∧ FifoBounded State.reset ∧ TransferSound State.reset
    ∧ configOk State.reset.cfg = true

/-- Memory keeps its canonical form in every step (log 7: the form is the model's). -/
def Obligations.MemoryStaysCanonical : Prop :=
  ∀ s t : State, Memory.wf s.mem = true → step s = .next t → Memory.wf t.mem = true

/-- R25, R72, R189, R213, R271, R285: in every step the resources held stay those of the lifecycle state: in
Ready everything, with the capacity and the framebuffer of the LED count; idle and not Ready, nothing. -/
def Obligations.ResourcesAlwaysMatch : Prop :=
  ∀ s t : State, ResourcesMatch s → step s = .next t → ResourcesMatch t

/-- R45, R137, R138, R314: in every step the peripherals stay configured as SETUP left them while the block is
Ready, and while SETUP runs they are configured in K1 to K10's order. That the generator runs from K6's write on is
R45's reading (log 14, DEDUCED, unsafe); R140 says from the CLK step after it. -/
def Obligations.HardwareAlwaysMatches : Prop :=
  ∀ s t : State, HardwareMatches s → step s = .next t → HardwareMatches t

/-- R75, R222 (a), R321, R325: no step ever asks for a region write while the DMA runs. -/
def Obligations.SingleWriterAlways : Prop :=
  ∀ s t : State, SingleWriter s → step s = .next t → SingleWriter t

/-- R42, R183, R184, R185: in every step the FIFO stays within FIFO_DEPTH words, and a running channel runs a
supported control block and has moved no more words than it names. -/
def Obligations.FifoAndTransferStayBounded : Prop :=
  (∀ s t : State, FifoBounded s → step s = .next t → FifoBounded t)
    ∧ ∀ s t : State, TransferSound s → step s = .next t → TransferSound t

/-- R30, R290 ("No rule of this spec reaches any of them"), R62, R66, R75, R185: from every sound state a step
gives a sound state again: no model fault is recorded and the machine does not stop, whatever the agents' order,
PLATFORM's answers and HOST's acts; only bytes that are no command are refused (R93, log 26). -/
def Obligations.SoundStatesNeverStop : Prop :=
  ∀ s : State, Sound s →
    (∃ t, step s = .next t ∧ Sound t)
      ∨ (step s = .refused .transport ∧ s.pc = .idle ∧ ∃ op, decode s.input = .short op)

/-- R9, R29, R30, R44, R142, R290: no step changes the parameters, clears a model fault or the termination flag, or
takes back a cycle of the output trace; and every new cycle's mark is within its range. That the first fault's reason
also stays when a second fault comes is the model's reading (log 12, DEDUCED: R30 and R290 do not say it). -/
def Obligations.NothingIsTakenBack : Prop :=
  ∀ s t : State, step s = .next t →
    t.cfg = s.cfg ∧ (∀ f, s.fault = some f → t.fault = some f)
      ∧ (s.termPending = true → t.termPending = true)
      ∧ ∃ tail, t.out = s.out ++ tail ∧ ∀ c ∈ tail, c.mark.toNat ≤ c.range.toNat
end

