-- ==== Sys2Proof/Laws/State.lean ====
section
/-! SUPPORT. For each named update of the state, what every field is after it: one lemma a field, true by
unfolding the update once, so that no later proof unfolds a record update. -/

namespace Sys2Proof.Machine

/-! ## setPc -/

@[simp] theorem State.setPc_cfg (x : Pc) (s : State) : (s.setPc x).cfg = s.cfg := rfl
@[simp] theorem State.setPc_life (x : Pc) (s : State) : (s.setPc x).life = s.life := rfl
@[simp] theorem State.setPc_pin (x : Pc) (s : State) : (s.setPc x).pin = s.pin := rfl
@[simp] theorem State.setPc_ch (x : Pc) (s : State) : (s.setPc x).ch = s.ch := rfl
@[simp] theorem State.setPc_ledCount (x : Pc) (s : State) : (s.setPc x).ledCount = s.ledCount := rfl
@[simp] theorem State.setPc_pc (x : Pc) (s : State) : (s.setPc x).pc = x := rfl
@[simp] theorem State.setPc_div (x : Pc) (s : State) : (s.setPc x).div = s.div := rfl
@[simp] theorem State.setPc_range (x : Pc) (s : State) : (s.setPc x).range = s.range := rfl
@[simp] theorem State.setPc_markZero (x : Pc) (s : State) : (s.setPc x).markZero = s.markZero := rfl
@[simp] theorem State.setPc_markOne (x : Pc) (s : State) : (s.setPc x).markOne = s.markOne := rfl
@[simp] theorem State.setPc_resetGapLength (x : Pc) (s : State) : (s.setPc x).resetGapLength = s.resetGapLength := rfl
@[simp] theorem State.setPc_mapped (x : Pc) (s : State) : (s.setPc x).mapped = s.mapped := rfl
@[simp] theorem State.setPc_region (x : Pc) (s : State) : (s.setPc x).region = s.region := rfl
@[simp] theorem State.setPc_capacity (x : Pc) (s : State) : (s.setPc x).capacity = s.capacity := rfl
@[simp] theorem State.setPc_dmaState (x : Pc) (s : State) : (s.setPc x).dmaState = s.dmaState := rfl
@[simp] theorem State.setPc_stage (x : Pc) (s : State) : (s.setPc x).stage = s.stage := rfl
@[simp] theorem State.setPc_resp (x : Pc) (s : State) : (s.setPc x).resp = s.resp := rfl
@[simp] theorem State.setPc_termPending (x : Pc) (s : State) : (s.setPc x).termPending = s.termPending := rfl
@[simp] theorem State.setPc_fault (x : Pc) (s : State) : (s.setPc x).fault = s.fault := rfl
@[simp] theorem State.setPc_fb (x : Pc) (s : State) : (s.setPc x).fb = s.fb := rfl
@[simp] theorem State.setPc_gpio (x : Pc) (s : State) : (s.setPc x).gpio = s.gpio := rfl
@[simp] theorem State.setPc_cm (x : Pc) (s : State) : (s.setPc x).cm = s.cm := rfl
@[simp] theorem State.setPc_pwm (x : Pc) (s : State) : (s.setPc x).pwm = s.pwm := rfl
@[simp] theorem State.setPc_clo (x : Pc) (s : State) : (s.setPc x).clo = s.clo := rfl
@[simp] theorem State.setPc_dma (x : Pc) (s : State) : (s.setPc x).dma = s.dma := rfl
@[simp] theorem State.setPc_fifo (x : Pc) (s : State) : (s.setPc x).fifo = s.fifo := rfl
@[simp] theorem State.setPc_clk (x : Pc) (s : State) : (s.setPc x).clk = s.clk := rfl
@[simp] theorem State.setPc_out (x : Pc) (s : State) : (s.setPc x).out = s.out := rfl
@[simp] theorem State.setPc_mem (x : Pc) (s : State) : (s.setPc x).mem = s.mem := rfl
@[simp] theorem State.setPc_plat (x : Pc) (s : State) : (s.setPc x).plat = s.plat := rfl
@[simp] theorem State.setPc_exchange (x : Pc) (s : State) : (s.setPc x).exchange = s.exchange := rfl
@[simp] theorem State.setPc_input (x : Pc) (s : State) : (s.setPc x).input = s.input := rfl
@[simp] theorem State.setPc_sched (x : Pc) (s : State) : (s.setPc x).sched = s.sched := rfl
@[simp] theorem State.setPc_answers (x : Pc) (s : State) : (s.setPc x).answers = s.answers := rfl
@[simp] theorem State.setPc_hostActs (x : Pc) (s : State) : (s.setPc x).hostActs = s.hostActs := rfl
@[simp] theorem State.setPc_draws (x : Pc) (s : State) : (s.setPc x).draws = s.draws := rfl

/-! ## setMem -/

@[simp] theorem State.setMem_cfg (x : List Host.Cell) (s : State) : (s.setMem x).cfg = s.cfg := rfl
@[simp] theorem State.setMem_life (x : List Host.Cell) (s : State) : (s.setMem x).life = s.life := rfl
@[simp] theorem State.setMem_pin (x : List Host.Cell) (s : State) : (s.setMem x).pin = s.pin := rfl
@[simp] theorem State.setMem_ch (x : List Host.Cell) (s : State) : (s.setMem x).ch = s.ch := rfl
@[simp] theorem State.setMem_ledCount (x : List Host.Cell) (s : State) : (s.setMem x).ledCount = s.ledCount := rfl
@[simp] theorem State.setMem_pc (x : List Host.Cell) (s : State) : (s.setMem x).pc = s.pc := rfl
@[simp] theorem State.setMem_div (x : List Host.Cell) (s : State) : (s.setMem x).div = s.div := rfl
@[simp] theorem State.setMem_range (x : List Host.Cell) (s : State) : (s.setMem x).range = s.range := rfl
@[simp] theorem State.setMem_markZero (x : List Host.Cell) (s : State) : (s.setMem x).markZero = s.markZero := rfl
@[simp] theorem State.setMem_markOne (x : List Host.Cell) (s : State) : (s.setMem x).markOne = s.markOne := rfl
@[simp] theorem State.setMem_resetGapLength (x : List Host.Cell) (s : State) : (s.setMem x).resetGapLength = s.resetGapLength := rfl
@[simp] theorem State.setMem_mapped (x : List Host.Cell) (s : State) : (s.setMem x).mapped = s.mapped := rfl
@[simp] theorem State.setMem_region (x : List Host.Cell) (s : State) : (s.setMem x).region = s.region := rfl
@[simp] theorem State.setMem_capacity (x : List Host.Cell) (s : State) : (s.setMem x).capacity = s.capacity := rfl
@[simp] theorem State.setMem_dmaState (x : List Host.Cell) (s : State) : (s.setMem x).dmaState = s.dmaState := rfl
@[simp] theorem State.setMem_stage (x : List Host.Cell) (s : State) : (s.setMem x).stage = s.stage := rfl
@[simp] theorem State.setMem_resp (x : List Host.Cell) (s : State) : (s.setMem x).resp = s.resp := rfl
@[simp] theorem State.setMem_termPending (x : List Host.Cell) (s : State) : (s.setMem x).termPending = s.termPending := rfl
@[simp] theorem State.setMem_fault (x : List Host.Cell) (s : State) : (s.setMem x).fault = s.fault := rfl
@[simp] theorem State.setMem_fb (x : List Host.Cell) (s : State) : (s.setMem x).fb = s.fb := rfl
@[simp] theorem State.setMem_gpio (x : List Host.Cell) (s : State) : (s.setMem x).gpio = s.gpio := rfl
@[simp] theorem State.setMem_cm (x : List Host.Cell) (s : State) : (s.setMem x).cm = s.cm := rfl
@[simp] theorem State.setMem_pwm (x : List Host.Cell) (s : State) : (s.setMem x).pwm = s.pwm := rfl
@[simp] theorem State.setMem_clo (x : List Host.Cell) (s : State) : (s.setMem x).clo = s.clo := rfl
@[simp] theorem State.setMem_dma (x : List Host.Cell) (s : State) : (s.setMem x).dma = s.dma := rfl
@[simp] theorem State.setMem_fifo (x : List Host.Cell) (s : State) : (s.setMem x).fifo = s.fifo := rfl
@[simp] theorem State.setMem_clk (x : List Host.Cell) (s : State) : (s.setMem x).clk = s.clk := rfl
@[simp] theorem State.setMem_out (x : List Host.Cell) (s : State) : (s.setMem x).out = s.out := rfl
@[simp] theorem State.setMem_mem (x : List Host.Cell) (s : State) : (s.setMem x).mem = x := rfl
@[simp] theorem State.setMem_plat (x : List Host.Cell) (s : State) : (s.setMem x).plat = s.plat := rfl
@[simp] theorem State.setMem_exchange (x : List Host.Cell) (s : State) : (s.setMem x).exchange = s.exchange := rfl
@[simp] theorem State.setMem_input (x : List Host.Cell) (s : State) : (s.setMem x).input = s.input := rfl
@[simp] theorem State.setMem_sched (x : List Host.Cell) (s : State) : (s.setMem x).sched = s.sched := rfl
@[simp] theorem State.setMem_answers (x : List Host.Cell) (s : State) : (s.setMem x).answers = s.answers := rfl
@[simp] theorem State.setMem_hostActs (x : List Host.Cell) (s : State) : (s.setMem x).hostActs = s.hostActs := rfl
@[simp] theorem State.setMem_draws (x : List Host.Cell) (s : State) : (s.setMem x).draws = s.draws := rfl

/-! ## respond -/

@[simp] theorem State.respond_cfg (st : Status) (d : Detail) (p : List Byte) (s : State) : (s.respond st d p).cfg = s.cfg := rfl
@[simp] theorem State.respond_life (st : Status) (d : Detail) (p : List Byte) (s : State) : (s.respond st d p).life = s.life := rfl
@[simp] theorem State.respond_pin (st : Status) (d : Detail) (p : List Byte) (s : State) : (s.respond st d p).pin = s.pin := rfl
@[simp] theorem State.respond_ch (st : Status) (d : Detail) (p : List Byte) (s : State) : (s.respond st d p).ch = s.ch := rfl
@[simp] theorem State.respond_ledCount (st : Status) (d : Detail) (p : List Byte) (s : State) : (s.respond st d p).ledCount = s.ledCount := rfl
@[simp] theorem State.respond_pc (st : Status) (d : Detail) (p : List Byte) (s : State) : (s.respond st d p).pc = s.pc := rfl
@[simp] theorem State.respond_div (st : Status) (d : Detail) (p : List Byte) (s : State) : (s.respond st d p).div = s.div := rfl
@[simp] theorem State.respond_range (st : Status) (d : Detail) (p : List Byte) (s : State) : (s.respond st d p).range = s.range := rfl
@[simp] theorem State.respond_markZero (st : Status) (d : Detail) (p : List Byte) (s : State) : (s.respond st d p).markZero = s.markZero := rfl
@[simp] theorem State.respond_markOne (st : Status) (d : Detail) (p : List Byte) (s : State) : (s.respond st d p).markOne = s.markOne := rfl
@[simp] theorem State.respond_resetGapLength (st : Status) (d : Detail) (p : List Byte) (s : State) : (s.respond st d p).resetGapLength = s.resetGapLength := rfl
@[simp] theorem State.respond_mapped (st : Status) (d : Detail) (p : List Byte) (s : State) : (s.respond st d p).mapped = s.mapped := rfl
@[simp] theorem State.respond_region (st : Status) (d : Detail) (p : List Byte) (s : State) : (s.respond st d p).region = s.region := rfl
@[simp] theorem State.respond_capacity (st : Status) (d : Detail) (p : List Byte) (s : State) : (s.respond st d p).capacity = s.capacity := rfl
@[simp] theorem State.respond_dmaState (st : Status) (d : Detail) (p : List Byte) (s : State) : (s.respond st d p).dmaState = s.dmaState := rfl
@[simp] theorem State.respond_stage (st : Status) (d : Detail) (p : List Byte) (s : State) : (s.respond st d p).stage = s.stage := rfl
@[simp] theorem State.respond_resp (st : Status) (d : Detail) (p : List Byte) (s : State) : (s.respond st d p).resp = { status := st, detail := d, payload := p } := rfl
@[simp] theorem State.respond_termPending (st : Status) (d : Detail) (p : List Byte) (s : State) : (s.respond st d p).termPending = s.termPending := rfl
@[simp] theorem State.respond_fault (st : Status) (d : Detail) (p : List Byte) (s : State) : (s.respond st d p).fault = s.fault := rfl
@[simp] theorem State.respond_fb (st : Status) (d : Detail) (p : List Byte) (s : State) : (s.respond st d p).fb = s.fb := rfl
@[simp] theorem State.respond_gpio (st : Status) (d : Detail) (p : List Byte) (s : State) : (s.respond st d p).gpio = s.gpio := rfl
@[simp] theorem State.respond_cm (st : Status) (d : Detail) (p : List Byte) (s : State) : (s.respond st d p).cm = s.cm := rfl
@[simp] theorem State.respond_pwm (st : Status) (d : Detail) (p : List Byte) (s : State) : (s.respond st d p).pwm = s.pwm := rfl
@[simp] theorem State.respond_clo (st : Status) (d : Detail) (p : List Byte) (s : State) : (s.respond st d p).clo = s.clo := rfl
@[simp] theorem State.respond_dma (st : Status) (d : Detail) (p : List Byte) (s : State) : (s.respond st d p).dma = s.dma := rfl
@[simp] theorem State.respond_fifo (st : Status) (d : Detail) (p : List Byte) (s : State) : (s.respond st d p).fifo = s.fifo := rfl
@[simp] theorem State.respond_clk (st : Status) (d : Detail) (p : List Byte) (s : State) : (s.respond st d p).clk = s.clk := rfl
@[simp] theorem State.respond_out (st : Status) (d : Detail) (p : List Byte) (s : State) : (s.respond st d p).out = s.out := rfl
@[simp] theorem State.respond_mem (st : Status) (d : Detail) (p : List Byte) (s : State) : (s.respond st d p).mem = s.mem := rfl
@[simp] theorem State.respond_plat (st : Status) (d : Detail) (p : List Byte) (s : State) : (s.respond st d p).plat = s.plat := rfl
@[simp] theorem State.respond_exchange (st : Status) (d : Detail) (p : List Byte) (s : State) : (s.respond st d p).exchange = s.exchange := rfl
@[simp] theorem State.respond_input (st : Status) (d : Detail) (p : List Byte) (s : State) : (s.respond st d p).input = s.input := rfl
@[simp] theorem State.respond_sched (st : Status) (d : Detail) (p : List Byte) (s : State) : (s.respond st d p).sched = s.sched := rfl
@[simp] theorem State.respond_answers (st : Status) (d : Detail) (p : List Byte) (s : State) : (s.respond st d p).answers = s.answers := rfl
@[simp] theorem State.respond_hostActs (st : Status) (d : Detail) (p : List Byte) (s : State) : (s.respond st d p).hostActs = s.hostActs := rfl
@[simp] theorem State.respond_draws (st : Status) (d : Detail) (p : List Byte) (s : State) : (s.respond st d p).draws = s.draws := rfl

/-! ## markFault -/

@[simp] theorem State.markFault_cfg (x : ModelFault) (s : State) : (s.markFault x).cfg = s.cfg := rfl
@[simp] theorem State.markFault_life (x : ModelFault) (s : State) : (s.markFault x).life = s.life := rfl
@[simp] theorem State.markFault_pin (x : ModelFault) (s : State) : (s.markFault x).pin = s.pin := rfl
@[simp] theorem State.markFault_ch (x : ModelFault) (s : State) : (s.markFault x).ch = s.ch := rfl
@[simp] theorem State.markFault_ledCount (x : ModelFault) (s : State) : (s.markFault x).ledCount = s.ledCount := rfl
@[simp] theorem State.markFault_pc (x : ModelFault) (s : State) : (s.markFault x).pc = s.pc := rfl
@[simp] theorem State.markFault_div (x : ModelFault) (s : State) : (s.markFault x).div = s.div := rfl
@[simp] theorem State.markFault_range (x : ModelFault) (s : State) : (s.markFault x).range = s.range := rfl
@[simp] theorem State.markFault_markZero (x : ModelFault) (s : State) : (s.markFault x).markZero = s.markZero := rfl
@[simp] theorem State.markFault_markOne (x : ModelFault) (s : State) : (s.markFault x).markOne = s.markOne := rfl
@[simp] theorem State.markFault_resetGapLength (x : ModelFault) (s : State) : (s.markFault x).resetGapLength = s.resetGapLength := rfl
@[simp] theorem State.markFault_mapped (x : ModelFault) (s : State) : (s.markFault x).mapped = s.mapped := rfl
@[simp] theorem State.markFault_region (x : ModelFault) (s : State) : (s.markFault x).region = s.region := rfl
@[simp] theorem State.markFault_capacity (x : ModelFault) (s : State) : (s.markFault x).capacity = s.capacity := rfl
@[simp] theorem State.markFault_dmaState (x : ModelFault) (s : State) : (s.markFault x).dmaState = s.dmaState := rfl
@[simp] theorem State.markFault_stage (x : ModelFault) (s : State) : (s.markFault x).stage = s.stage := rfl
@[simp] theorem State.markFault_resp (x : ModelFault) (s : State) : (s.markFault x).resp = s.resp := rfl
@[simp] theorem State.markFault_termPending (x : ModelFault) (s : State) : (s.markFault x).termPending = s.termPending := rfl
@[simp] theorem State.markFault_fault (x : ModelFault) (s : State) : (s.markFault x).fault = some (s.fault.getD x) := rfl
@[simp] theorem State.markFault_fb (x : ModelFault) (s : State) : (s.markFault x).fb = s.fb := rfl
@[simp] theorem State.markFault_gpio (x : ModelFault) (s : State) : (s.markFault x).gpio = s.gpio := rfl
@[simp] theorem State.markFault_cm (x : ModelFault) (s : State) : (s.markFault x).cm = s.cm := rfl
@[simp] theorem State.markFault_pwm (x : ModelFault) (s : State) : (s.markFault x).pwm = s.pwm := rfl
@[simp] theorem State.markFault_clo (x : ModelFault) (s : State) : (s.markFault x).clo = s.clo := rfl
@[simp] theorem State.markFault_dma (x : ModelFault) (s : State) : (s.markFault x).dma = s.dma := rfl
@[simp] theorem State.markFault_fifo (x : ModelFault) (s : State) : (s.markFault x).fifo = s.fifo := rfl
@[simp] theorem State.markFault_clk (x : ModelFault) (s : State) : (s.markFault x).clk = s.clk := rfl
@[simp] theorem State.markFault_out (x : ModelFault) (s : State) : (s.markFault x).out = s.out := rfl
@[simp] theorem State.markFault_mem (x : ModelFault) (s : State) : (s.markFault x).mem = s.mem := rfl
@[simp] theorem State.markFault_plat (x : ModelFault) (s : State) : (s.markFault x).plat = s.plat := rfl
@[simp] theorem State.markFault_exchange (x : ModelFault) (s : State) : (s.markFault x).exchange = s.exchange := rfl
@[simp] theorem State.markFault_input (x : ModelFault) (s : State) : (s.markFault x).input = s.input := rfl
@[simp] theorem State.markFault_sched (x : ModelFault) (s : State) : (s.markFault x).sched = s.sched := rfl
@[simp] theorem State.markFault_answers (x : ModelFault) (s : State) : (s.markFault x).answers = s.answers := rfl
@[simp] theorem State.markFault_hostActs (x : ModelFault) (s : State) : (s.markFault x).hostActs = s.hostActs := rfl
@[simp] theorem State.markFault_draws (x : ModelFault) (s : State) : (s.markFault x).draws = s.draws := rfl

/-! ## setPlat -/

@[simp] theorem State.setPlat_cfg (x : Platform) (s : State) : (s.setPlat x).cfg = s.cfg := rfl
@[simp] theorem State.setPlat_life (x : Platform) (s : State) : (s.setPlat x).life = s.life := rfl
@[simp] theorem State.setPlat_pin (x : Platform) (s : State) : (s.setPlat x).pin = s.pin := rfl
@[simp] theorem State.setPlat_ch (x : Platform) (s : State) : (s.setPlat x).ch = s.ch := rfl
@[simp] theorem State.setPlat_ledCount (x : Platform) (s : State) : (s.setPlat x).ledCount = s.ledCount := rfl
@[simp] theorem State.setPlat_pc (x : Platform) (s : State) : (s.setPlat x).pc = s.pc := rfl
@[simp] theorem State.setPlat_div (x : Platform) (s : State) : (s.setPlat x).div = s.div := rfl
@[simp] theorem State.setPlat_range (x : Platform) (s : State) : (s.setPlat x).range = s.range := rfl
@[simp] theorem State.setPlat_markZero (x : Platform) (s : State) : (s.setPlat x).markZero = s.markZero := rfl
@[simp] theorem State.setPlat_markOne (x : Platform) (s : State) : (s.setPlat x).markOne = s.markOne := rfl
@[simp] theorem State.setPlat_resetGapLength (x : Platform) (s : State) : (s.setPlat x).resetGapLength = s.resetGapLength := rfl
@[simp] theorem State.setPlat_mapped (x : Platform) (s : State) : (s.setPlat x).mapped = s.mapped := rfl
@[simp] theorem State.setPlat_region (x : Platform) (s : State) : (s.setPlat x).region = s.region := rfl
@[simp] theorem State.setPlat_capacity (x : Platform) (s : State) : (s.setPlat x).capacity = s.capacity := rfl
@[simp] theorem State.setPlat_dmaState (x : Platform) (s : State) : (s.setPlat x).dmaState = s.dmaState := rfl
@[simp] theorem State.setPlat_stage (x : Platform) (s : State) : (s.setPlat x).stage = s.stage := rfl
@[simp] theorem State.setPlat_resp (x : Platform) (s : State) : (s.setPlat x).resp = s.resp := rfl
@[simp] theorem State.setPlat_termPending (x : Platform) (s : State) : (s.setPlat x).termPending = s.termPending := rfl
@[simp] theorem State.setPlat_fault (x : Platform) (s : State) : (s.setPlat x).fault = s.fault := rfl
@[simp] theorem State.setPlat_fb (x : Platform) (s : State) : (s.setPlat x).fb = s.fb := rfl
@[simp] theorem State.setPlat_gpio (x : Platform) (s : State) : (s.setPlat x).gpio = s.gpio := rfl
@[simp] theorem State.setPlat_cm (x : Platform) (s : State) : (s.setPlat x).cm = s.cm := rfl
@[simp] theorem State.setPlat_pwm (x : Platform) (s : State) : (s.setPlat x).pwm = s.pwm := rfl
@[simp] theorem State.setPlat_clo (x : Platform) (s : State) : (s.setPlat x).clo = s.clo := rfl
@[simp] theorem State.setPlat_dma (x : Platform) (s : State) : (s.setPlat x).dma = s.dma := rfl
@[simp] theorem State.setPlat_fifo (x : Platform) (s : State) : (s.setPlat x).fifo = s.fifo := rfl
@[simp] theorem State.setPlat_clk (x : Platform) (s : State) : (s.setPlat x).clk = s.clk := rfl
@[simp] theorem State.setPlat_out (x : Platform) (s : State) : (s.setPlat x).out = s.out := rfl
@[simp] theorem State.setPlat_mem (x : Platform) (s : State) : (s.setPlat x).mem = s.mem := rfl
@[simp] theorem State.setPlat_plat (x : Platform) (s : State) : (s.setPlat x).plat = x := rfl
@[simp] theorem State.setPlat_exchange (x : Platform) (s : State) : (s.setPlat x).exchange = s.exchange := rfl
@[simp] theorem State.setPlat_input (x : Platform) (s : State) : (s.setPlat x).input = s.input := rfl
@[simp] theorem State.setPlat_sched (x : Platform) (s : State) : (s.setPlat x).sched = s.sched := rfl
@[simp] theorem State.setPlat_answers (x : Platform) (s : State) : (s.setPlat x).answers = s.answers := rfl
@[simp] theorem State.setPlat_hostActs (x : Platform) (s : State) : (s.setPlat x).hostActs = s.hostActs := rfl
@[simp] theorem State.setPlat_draws (x : Platform) (s : State) : (s.setPlat x).draws = s.draws := rfl

/-! ## setExchange -/

@[simp] theorem State.setExchange_cfg (x : Exchange) (s : State) : (s.setExchange x).cfg = s.cfg := rfl
@[simp] theorem State.setExchange_life (x : Exchange) (s : State) : (s.setExchange x).life = s.life := rfl
@[simp] theorem State.setExchange_pin (x : Exchange) (s : State) : (s.setExchange x).pin = s.pin := rfl
@[simp] theorem State.setExchange_ch (x : Exchange) (s : State) : (s.setExchange x).ch = s.ch := rfl
@[simp] theorem State.setExchange_ledCount (x : Exchange) (s : State) : (s.setExchange x).ledCount = s.ledCount := rfl
@[simp] theorem State.setExchange_pc (x : Exchange) (s : State) : (s.setExchange x).pc = s.pc := rfl
@[simp] theorem State.setExchange_div (x : Exchange) (s : State) : (s.setExchange x).div = s.div := rfl
@[simp] theorem State.setExchange_range (x : Exchange) (s : State) : (s.setExchange x).range = s.range := rfl
@[simp] theorem State.setExchange_markZero (x : Exchange) (s : State) : (s.setExchange x).markZero = s.markZero := rfl
@[simp] theorem State.setExchange_markOne (x : Exchange) (s : State) : (s.setExchange x).markOne = s.markOne := rfl
@[simp] theorem State.setExchange_resetGapLength (x : Exchange) (s : State) : (s.setExchange x).resetGapLength = s.resetGapLength := rfl
@[simp] theorem State.setExchange_mapped (x : Exchange) (s : State) : (s.setExchange x).mapped = s.mapped := rfl
@[simp] theorem State.setExchange_region (x : Exchange) (s : State) : (s.setExchange x).region = s.region := rfl
@[simp] theorem State.setExchange_capacity (x : Exchange) (s : State) : (s.setExchange x).capacity = s.capacity := rfl
@[simp] theorem State.setExchange_dmaState (x : Exchange) (s : State) : (s.setExchange x).dmaState = s.dmaState := rfl
@[simp] theorem State.setExchange_stage (x : Exchange) (s : State) : (s.setExchange x).stage = s.stage := rfl
@[simp] theorem State.setExchange_resp (x : Exchange) (s : State) : (s.setExchange x).resp = s.resp := rfl
@[simp] theorem State.setExchange_termPending (x : Exchange) (s : State) : (s.setExchange x).termPending = s.termPending := rfl
@[simp] theorem State.setExchange_fault (x : Exchange) (s : State) : (s.setExchange x).fault = s.fault := rfl
@[simp] theorem State.setExchange_fb (x : Exchange) (s : State) : (s.setExchange x).fb = s.fb := rfl
@[simp] theorem State.setExchange_gpio (x : Exchange) (s : State) : (s.setExchange x).gpio = s.gpio := rfl
@[simp] theorem State.setExchange_cm (x : Exchange) (s : State) : (s.setExchange x).cm = s.cm := rfl
@[simp] theorem State.setExchange_pwm (x : Exchange) (s : State) : (s.setExchange x).pwm = s.pwm := rfl
@[simp] theorem State.setExchange_clo (x : Exchange) (s : State) : (s.setExchange x).clo = s.clo := rfl
@[simp] theorem State.setExchange_dma (x : Exchange) (s : State) : (s.setExchange x).dma = s.dma := rfl
@[simp] theorem State.setExchange_fifo (x : Exchange) (s : State) : (s.setExchange x).fifo = s.fifo := rfl
@[simp] theorem State.setExchange_clk (x : Exchange) (s : State) : (s.setExchange x).clk = s.clk := rfl
@[simp] theorem State.setExchange_out (x : Exchange) (s : State) : (s.setExchange x).out = s.out := rfl
@[simp] theorem State.setExchange_mem (x : Exchange) (s : State) : (s.setExchange x).mem = s.mem := rfl
@[simp] theorem State.setExchange_plat (x : Exchange) (s : State) : (s.setExchange x).plat = s.plat := rfl
@[simp] theorem State.setExchange_exchange (x : Exchange) (s : State) : (s.setExchange x).exchange = x := rfl
@[simp] theorem State.setExchange_input (x : Exchange) (s : State) : (s.setExchange x).input = s.input := rfl
@[simp] theorem State.setExchange_sched (x : Exchange) (s : State) : (s.setExchange x).sched = s.sched := rfl
@[simp] theorem State.setExchange_answers (x : Exchange) (s : State) : (s.setExchange x).answers = s.answers := rfl
@[simp] theorem State.setExchange_hostActs (x : Exchange) (s : State) : (s.setExchange x).hostActs = s.hostActs := rfl
@[simp] theorem State.setExchange_draws (x : Exchange) (s : State) : (s.setExchange x).draws = s.draws := rfl

end Sys2Proof.Machine
end

