-- ==== Sys2Proof/Laws/Memory.lean ====
section
/-! SUPPORT. The laws of memory: a read after a write gives what was written, a write leaves every other
place alone, and every operation keeps the canonical form. -/

namespace Sys2Proof.Machine

/-! ## Sparse tables -/

@[simp] theorem sparseGet_put_same {β : Type} (a : Nat) (v : β) (m : List (Nat × β)) :
    sparseGet (sparsePut a v m) a = some v := by
  induction m with
  | nil => simp [sparsePut, sparseGet]
  | cons e rest ih =>
    obtain ⟨k, w⟩ := e
    simp only [sparsePut]
    split
    · simp [sparseGet]
    · split
      · simp [sparseGet]
      · have : k ≠ a := fun h => by simp_all
        simp [sparseGet, this, ih]

theorem sparseGet_put_other {β : Type} {a b : Nat} (h : b ≠ a) (v : β) (m : List (Nat × β)) :
    sparseGet (sparsePut a v m) b = sparseGet m b := by
  induction m with
  | nil => simp [sparsePut, sparseGet, Ne.symm h]
  | cons e rest ih =>
    obtain ⟨k, w⟩ := e
    simp only [sparsePut]
    split
    · simp [sparseGet, Ne.symm h]
    · split
      · rename_i _ heq
        subst heq
        simp [sparseGet, Ne.symm h]
      · simp [sparseGet, ih]

@[simp] theorem sparseGet_erase_same {β : Type} (a : Nat) (m : List (Nat × β)) :
    sparseGet (sparseErase a m) a = none := by
  induction m with
  | nil => rfl
  | cons e rest ih =>
    obtain ⟨k, w⟩ := e
    by_cases h : k = a <;> simp_all [sparseErase, sparseGet]

theorem sparseGet_erase_other {β : Type} {a b : Nat} (h : b ≠ a) (m : List (Nat × β)) :
    sparseGet (sparseErase a m) b = sparseGet m b := by
  induction m with
  | nil => rfl
  | cons e rest ih =>
    obtain ⟨k, w⟩ := e
    by_cases hk : k = a
    · subst hk
      simpa [sparseErase, sparseGet, Ne.symm h] using ih
    · by_cases hb : k = b <;> simp_all [sparseErase, sparseGet]

theorem sparsePut_sorted {β : Type} (a : Nat) (v : β) (m : List (Nat × β)) :
    ∀ lo, lo ≤ a → sparseSortedFrom lo m = true → sparseSortedFrom lo (sparsePut a v m) = true := by
  induction m with
  | nil => intro lo hlo _; simp [sparsePut, sparseSortedFrom, hlo]
  | cons e rest ih =>
    obtain ⟨k, w⟩ := e
    intro lo hlo h
    simp only [sparseSortedFrom, Bool.and_eq_true, decide_eq_true_eq] at h
    simp only [sparsePut]
    split
    · simp only [sparseSortedFrom, Bool.and_eq_true, decide_eq_true_eq]
      exact ⟨hlo, by omega, h.2⟩
    · split
      · rename_i heq
        subst heq
        simp [sparseSortedFrom, hlo, h.2]
      · simp only [sparseSortedFrom, Bool.and_eq_true, decide_eq_true_eq]
        exact ⟨h.1, ih (k + 1) (by omega) h.2⟩

/-! ## The canonical form -/

theorem Memory_wf_nil : Memory.wf [] = true := rfl

theorem Memory_wf_put (a : Nat) (b : Byte) {m : List Host.Cell} (h : Memory.wf m = true) :
    Memory.wf (sparsePut a b m) = true :=
  sparsePut_sorted a b m 0 (Nat.zero_le a) h

theorem putBytes_wf (r : Region) (bs : List Byte) :
    ∀ (off : Nat) (m : List Host.Cell), Memory.wf m = true → Memory.wf (putBytes r off bs m) = true := by
  induction bs with
  | nil => intro _ _ h; exact h
  | cons b bs ih => intro off m h; exact ih _ _ (Memory_wf_put _ b h)

theorem putWord_wf (r : Region) (off : Nat) (w : Word) {m : List Host.Cell} (h : Memory.wf m = true) :
    Memory.wf (putWord r off w m) = true :=
  putBytes_wf r (wordBytes w) off m h

/-! ## Addresses of the region -/

theorem cellOf_injective (r : Region) {i j : Nat} (h : cellOf r i = cellOf r j) : i = j := by
  unfold cellOf at h
  omega

/-- What the region has an address for (R66). -/
theorem Region.has_iff (r : Region) (off n : Nat) :
    r.has off n = true ↔ off + n ≤ r.size ∧ r.bbase.toNat + off + n ≤ 2 ^ 32 := by
  simp [Region.has]

/-- A part of what the region has an address for has one. -/
theorem Region.has_mono {r : Region} {off n off' n' : Nat} (h : r.has off n = true) (h' : off' + n' ≤ off + n) :
    r.has off' n' = true := by
  rw [Region.has_iff] at *
  omega

/-- The bus address of an offset the region has (R66). -/
theorem busAddr_some {r : Region} {off : Nat} (h : r.has off 1 = true) :
    ∃ a : Word, busAddr r off = some a ∧ a.toNat = cellOf r off := by
  refine ⟨_, by simp [busAddr, h]; rfl, ?_⟩
  rw [Region.has_iff] at h
  rw [BitVec.toNat_ofNat]
  exact Nat.mod_eq_of_lt (by omega)

/-! ## Words -/

@[simp] theorem bytesWord_wordBytes (w : Word) :
    bytesWord (w.extractLsb' 0 8) (w.extractLsb' 8 8) (w.extractLsb' 16 8) (w.extractLsb' 24 8) = w := by
  unfold bytesWord
  ext i hi
  simp only [BitVec.getElem_or, BitVec.getElem_shiftLeft, BitVec.getElem_setWidth, BitVec.getLsbD_extractLsb']
  rcases (by omega : i < 8 ∨ (8 ≤ i ∧ i < 16) ∨ (16 ≤ i ∧ i < 24) ∨ 24 ≤ i) with h | h | h | h
  · simp [h, show i < 16 by omega, show i < 24 by omega, BitVec.getLsbD_eq_getElem hi]
  · simp [show ¬ i < 8 by omega, h, show i < 24 by omega, show i - 8 < 8 by omega,
      show 8 + (i - 8) = i by omega, BitVec.getLsbD_eq_getElem hi]
  · simp [show ¬ i < 8 by omega, show ¬ i < 16 by omega, h, show ¬ i - 8 < 8 by omega,
      show i - 16 < 8 by omega, show 16 + (i - 16) = i by omega, BitVec.getLsbD_eq_getElem hi]
  · simp [show ¬ i < 8 by omega, show ¬ i < 16 by omega, show ¬ i < 24 by omega, show ¬ i - 8 < 8 by omega,
      show ¬ i - 16 < 8 by omega, show i - 24 < 8 by omega, show 24 + (i - 24) = i by omega,
      BitVec.getLsbD_eq_getElem hi]

/-- A write of bytes leaves every address outside them alone. -/
theorem memByte_putBytes_other (r : Region) (bs : List Byte) {a : Nat} :
    ∀ (off : Nat) (m : List Host.Cell), (∀ k, k < bs.length → a ≠ cellOf r (off + k)) →
      memByte (putBytes r off bs m) a = memByte m a := by
  induction bs with
  | nil => intro _ _ _; rfl
  | cons b bs ih =>
    intro off m h
    rw [putBytes, ih (off + 1) _ (fun k hk => by
      have := h (k + 1) (by simpa using hk)
      rwa [show off + 1 + k = off + (k + 1) by omega])]
    exact sparseGet_put_other (by simpa using h 0 (by simp)) b m

theorem memByte_putWord_other (r : Region) (off : Nat) (w : Word) (m : List Host.Cell) {a : Nat}
    (h : ∀ k, k < 4 → a ≠ cellOf r (off + k)) : memByte (putWord r off w m) a = memByte m a :=
  memByte_putBytes_other r (wordBytes w) off m (by simpa [wordBytes] using h)

/-- A read of the word just written gives it (R67). -/
theorem getWord_putWord_same (r : Region) (off : Nat) (w : Word) (m : List Host.Cell) :
    getWord r off (putWord r off w m) = some w := by
  have ne : ∀ i j, i < 4 → j < 4 → i ≠ j → cellOf r (off + i) ≠ cellOf r (off + j) := fun i j _ _ hij e =>
    hij (by have := cellOf_injective r e; omega)
  have h01 := ne 0 1 (by omega) (by omega) (by omega)
  have h02 := ne 0 2 (by omega) (by omega) (by omega)
  have h03 := ne 0 3 (by omega) (by omega) (by omega)
  have h12 := ne 1 2 (by omega) (by omega) (by omega)
  have h13 := ne 1 3 (by omega) (by omega) (by omega)
  have h23 := ne 2 3 (by omega) (by omega) (by omega)
  rw [Nat.add_zero] at h01 h02 h03
  simp only [getWord, putWord, wordBytes, putBytes, memByte, Nat.add_assoc, Nat.reduceAdd]
  rw [sparseGet_put_other h03, sparseGet_put_other h02, sparseGet_put_other h01, sparseGet_put_same,
    sparseGet_put_other h13, sparseGet_put_other h12, sparseGet_put_same,
    sparseGet_put_other h23, sparseGet_put_same, sparseGet_put_same]
  simp

/-- A write of one word leaves every other aligned word of the region alone. -/
theorem getWord_putWord_other (r : Region) {i j : Nat} (w : Word) (m : List Host.Cell)
    (h : i + 4 ≤ j ∨ j + 4 ≤ i) :
    getWord r i (putWord r j w m) = getWord r i m := by
  have key : ∀ k, k < 4 → memByte (putWord r j w m) (cellOf r (i + k)) = memByte m (cellOf r (i + k)) :=
    fun k hk => memByte_putWord_other r j w m (fun l hl e => by
      have := cellOf_injective r e
      omega)
  have k0 := key 0 (by omega)
  rw [Nat.add_zero] at k0
  simp only [getWord, k0, key 1 (by omega), key 2 (by omega), key 3 (by omega)]

/-- `MemWrite` says once what it can do: with a region that holds the access, an aligned word is stored if the DMA
is stopped; a wrong width or a running DMA records its model fault and stores nothing (R67, R71, R75). -/
theorem memWrite_cases {off n : Nat} {v : Word} {s s' : State} (h : memWrite off n v s = .ok s') :
    ∃ r, s.region = some r ∧ r.has off n = true ∧
      ((n ≠ 4 ∨ off % 4 ≠ 0) ∧ s' = s.markFault .mixedWidth
        ∨ n = 4 ∧ off % 4 = 0 ∧ s.dma.phase = .running ∧ s' = s.markFault .dmaRace
        ∨ n = 4 ∧ off % 4 = 0 ∧ s.dma.phase = .stopped ∧ s' = s.setMem (putWord r off v s.mem)) := by
  unfold memWrite at h
  cases hr : s.region with
  | none => simp [hr] at h
  | some r =>
    simp only [hr] at h
    cases hs : r.has off n with
    | false => simp [hs] at h
    | true =>
      rw [hs, if_neg (by decide)] at h
      refine ⟨r, rfl, hs, ?_⟩
      by_cases hw : n ≠ 4 ∨ off % 4 ≠ 0
      · rw [if_pos hw] at h
        cases h
        exact .inl ⟨hw, rfl⟩
      · rw [if_neg hw] at h
        have hn : n = 4 ∧ off % 4 = 0 := by omega
        cases hp : s.dma.phase with
        | running =>
          rw [if_pos hp] at h
          cases h
          exact .inr (.inl ⟨hn.1, hn.2, rfl, rfl⟩)
        | stopped =>
          rw [if_neg (by simp [hp])] at h
          cases h
          exact .inr (.inr ⟨hn.1, hn.2, rfl, rfl⟩)

/-- The store of an aligned word inside the region of a stopped channel is performed (R67). -/
theorem memWrite_stores {off : Nat} {v : Word} {s : State} {r : Region} (hr : s.region = some r)
    (ha : off % 4 = 0) (hs : r.has off 4 = true) (hp : s.dma.phase = .stopped) :
    memWrite off 4 v s = .ok (s.setMem (putWord r off v s.mem)) := by
  simp [memWrite, hr, ha, hp, hs]

/-- Every memory operation of the sequencer keeps the canonical form. -/
theorem memWrite_wf {off n : Nat} {v : Word} {s s' : State} (h : memWrite off n v s = .ok s')
    (hm : Memory.wf s.mem = true) : Memory.wf s'.mem = true := by
  obtain ⟨r, -, -, ⟨-, rfl⟩ | ⟨-, -, -, rfl⟩ | ⟨-, -, -, rfl⟩⟩ := memWrite_cases h
  · exact hm
  · exact hm
  · exact putWord_wf r off v hm

/-- Freeing the allocation keeps the canonical form. -/
theorem platFree_wf (s : State) : Memory.wf (platFree s).mem = true := rfl

/-- Memory at power-on has the canonical form. -/
theorem reset_mem_wf : Memory.wf State.reset.mem = true := rfl

end Sys2Proof.Machine
end

