-- ==== Sys2Proof/Laws/PerInstr.lean ====
section
/-! SUPPORT. The statements made per instruction, one lemma a constructor. Family `EncodedLength`: the
encoding of a command has the length its opcode says (30_encoding.md R91, R92, R101). -/

namespace Sys2Proof.Laws.EncodedLength

/-- The encoding of a command has the length its opcode says. -/
def Statement (i : Instr) : Prop := (encode i).length = commandLength (opcode i)

theorem setup (pin ledCount : Int) : Statement (.setup pin ledCount) := rfl
theorem setColor (index r g b : Int) : Statement (.setColor index r g b) := rfl
theorem setColorHsb (index hue sat value : Int) : Statement (.setColorHsb index hue sat value) := rfl
theorem send : Statement .send := rfl
theorem clearAll : Statement .clearAll := rfl
theorem cleanup : Statement .cleanup := rfl
theorem encode : Statement .encode := rfl
theorem hsbToRgb (h s v : Int) : Statement (.hsbToRgb h s v) := rfl

end Sys2Proof.Laws.EncodedLength
end

