-- ==== Sys2Proof/Laws/Procedures.lean ====
section
/-! SUPPORT. What a micro-step of a procedure can do, said once: a rule for each way a procedure is built
(`after`, `read`, `ask`, `call`, `callUndo`, `resolve`), and one lemma for each shared operation on registers. -/

namespace Sys2Proof.Machine

/-! ## Judging the outcome of a procedure's micro-step -/

/-- Each outcome of a micro-step meets the property named for it: `G` where it moves to a label, `D` where
the procedure ends, `R` where it raises. A stop of the machine is no next state and meets anything. -/
def Proc.Meets {α : Type} (p : Proc α) (G : α → State → Prop) (D : State → Prop)
    (R : Status → Detail → State → Prop) : Prop :=
  match p with
  | .goto l s => G l s
  | .done s => D s
  | .raise st d s => R st d s
  | .stop _ => True

section Rules
variable {α β : Type} {G : α → State → Prop} {D : State → Prop} {R : Status → Detail → State → Prop}

@[simp] theorem Proc.meets_goto (l : α) (s : State) : (Proc.goto l s).Meets G D R ↔ G l s := Iff.rfl
@[simp] theorem Proc.meets_done (s : State) : (Proc.done s : Proc α).Meets G D R ↔ D s := Iff.rfl
@[simp] theorem Proc.meets_raise (st : Status) (d : Detail) (s : State) :
    (Proc.raise st d s : Proc α).Meets G D R ↔ R st d s := Iff.rfl
@[simp] theorem Proc.meets_stop (f : Fault) : (Proc.stop f : Proc α).Meets G D R ↔ True := Iff.rfl

theorem Proc.meets_after {x : Except Fault State} {k : State → Proc α}
    (h : ∀ s', x = .ok s' → (k s').Meets G D R) : (Proc.after x k).Meets G D R := by
  cases x with
  | error f => trivial
  | ok s' => exact h s' rfl

theorem Proc.meets_read {r : Reg} {value : State → β} {stay : α} {s : State} {k : β → Proc α}
    (hk : s.mapped = true → regInBlock s.cfg r = true → (k (value s)).Meets G D R)
    (hstay : regInBlock s.cfg r = false → G stay (s.markFault .regOutOfBlock)) :
    (Proc.read r value stay s k).Meets G D R := by
  unfold Proc.read
  cases hm : s.mapped with
  | false => trivial
  | true =>
    cases hr : regInBlock s.cfg r with
    | false => exact hstay hr
    | true => exact hk hm hr

theorem Proc.meets_call {p : Proc β} {wrap : β → α} {next : State → Proc α}
    (h : p.Meets (fun l s => G (wrap l) s) (fun s => (next s).Meets G D R) R) :
    (p.call wrap next).Meets G D R := by
  cases p <;> exact h

theorem Proc.meets_callUndo {p : Proc β} {wrap : β → α} {undo : State → State} {next : State → Proc α}
    (h : p.Meets (fun l s => G (wrap l) s) (fun s => (next s).Meets G D R) (fun st d s => R st d (undo s))) :
    (p.callUndo wrap undo next).Meets G D R := by
  cases p <;> exact h

/-- A request to PLATFORM does one of three things: SEQ makes it, SEQ holds, or SEQ goes on with the answer
(R170). -/
theorem Proc.meets_ask {r : Request} {stay : α} {s : State} {k : Answer → State → Proc α}
    (hask : s.exchange = .quiet → G stay (s.setExchange (.asked r)))
    (hwait : ∀ r', s.exchange = .asked r' → G stay s)
    (hk : ∀ a, s.exchange = .answered a → (k a (s.setExchange .quiet)).Meets G D R) :
    (Proc.ask r stay s k).Meets G D R := by
  unfold Proc.ask
  cases hx : s.exchange with
  | quiet => exact hask hx
  | asked r' => exact hwait r' hx
  | answered a => exact hk a hx

theorem Proc.Meets.mono {p : Proc α} {G' : α → State → Prop} {D' : State → Prop}
    {R' : Status → Detail → State → Prop} (h : p.Meets G D R) (hG : ∀ l s, G l s → G' l s)
    (hD : ∀ s, D s → D' s) (hR : ∀ st d s, R st d s → R' st d s) : p.Meets G' D' R' := by
  cases p with
  | goto l s => exact hG l s h
  | done s => exact hD s h
  | raise st d s => exact hR st d s h
  | stop f => trivial

/-- A command's micro-step gives a next state exactly in one of three ways: it moves to a label, it ends,
or it raises. -/
theorem resolve_next {wrap : α → Pc} {finish : State → State} {p : Proc α} {t : State}
    (h : resolve wrap finish p = .next t) :
    (∃ l s, p = .goto l s ∧ t = s.setPc (wrap l)) ∨ (∃ s, p = .done s ∧ t = finish s)
      ∨ ∃ st d s, p = .raise st d s ∧ t = raiseError st d s := by
  cases p with
  | goto l s => cases h; exact .inl ⟨l, s, rfl, rfl⟩
  | done s => cases h; exact .inr (.inl ⟨s, rfl, rfl⟩)
  | raise st d s => cases h; exact .inr (.inr ⟨st, d, s, rfl, rfl⟩)
  | stop f => cases h

/-- What holds of every outcome of a micro-step holds of the command's next state. -/
theorem resolve_meets {wrap : α → Pc} {finish : State → State} {p : Proc α} {t : State} {P : State → Prop}
    (h : resolve wrap finish p = .next t)
    (hp : p.Meets (fun l s => P (s.setPc (wrap l))) (fun s => P (finish s)) (fun st d s => P (raiseError st d s))) :
    P t := by
  obtain ⟨l, s, rfl, rfl⟩ | ⟨s, rfl, rfl⟩ | ⟨st, d, s, rfl, rfl⟩ := resolve_next h <;> exact hp

end Rules

/-! ## Registers -/

/-- A register write either has its effect or, out of its block, records REG_OUT_OF_BLOCK (R62, R63). -/
theorem regWrite_cases {r : Reg} {eff : State → State} {s s' : State} (h : regWrite r eff s = .ok s') :
    s.mapped = true ∧ (regInBlock s.cfg r = true ∧ s' = eff s
      ∨ regInBlock s.cfg r = false ∧ s' = s.markFault .regOutOfBlock) := by
  unfold regWrite at h
  cases hm : s.mapped <;> cases hr : regInBlock s.cfg r <;> simp_all

/-- A register write through the mapped window, inside its block, has its effect (R62). -/
theorem regWrite_effect {r : Reg} {eff : State → State} {s : State} (hm : s.mapped = true)
    (hr : regInBlock s.cfg r = true) : regWrite r eff s = .ok (eff s) := by
  simp [regWrite, hm, hr]

/-- A clock-manager write carries the password (R35). -/
theorem cmWrite_cases {r : Reg} {p : Nat} {eff : State → State} {s s' : State}
    (h : cmWrite r p eff s = .ok s') :
    p = s.cfg.layout.cmPasswd ∧ s.mapped = true ∧ (regInBlock s.cfg r = true ∧ s' = eff s
      ∨ regInBlock s.cfg r = false ∧ s' = s.markFault .regOutOfBlock) := by
  unfold cmWrite at h
  split at h
  · rename_i hp
    exact ⟨hp, regWrite_cases h⟩
  · cases h

/-! ## Free draws -/

/-- Drawing an answer changes nothing but what is left of the answers and the count of draws (R170). -/
theorem nextAnswer_state (s : State) :
    ∃ (as : List Answer) (n : Nat), (nextAnswer s).2 = { s with answers := as, draws := n } := by
  unfold nextAnswer
  split
  · exact ⟨_, s.draws, rfl⟩
  · exact ⟨s.answers, _, rfl⟩

/-- Drawing HOST's next act changes nothing but what is left of its acts and the count of draws (R14). -/
theorem nextHostAct_state (s : State) :
    ∃ (as : List HostAct) (n : Nat), (nextHostAct s).2 = { s with hostActs := as, draws := n } := by
  unfold nextHostAct
  split
  · exact ⟨_, s.draws, rfl⟩
  · exact ⟨s.hostActs, _, rfl⟩

/-- Drawing the next agent changes nothing but what is left of the schedule and the count of draws (R14). -/
theorem nextAgent_state (s : State) :
    ∃ (as : List Agent) (n : Nat), (nextAgent s).2 = { s with sched := as, draws := n } := by
  unfold nextAgent
  split
  · exact ⟨_, s.draws, rfl⟩
  · exact ⟨s.sched, _, rfl⟩

/-! ## The DMA channel -/

/-- START says once what it can do: the channel was running and nothing changes, a model fault is recorded
and the agent does not run, or the channel runs a control block the model gives a meaning to (R184, R185). -/
theorem dmaStart_cases {s s' : State} (h : dmaStart s = .ok s') :
    s.dma.phase = .running ∧ s' = s
      ∨ s.dma.phase = .stopped ∧ s' = s.markFault .mixedWidth
      ∨ (∃ cb, s.dma.phase = .stopped ∧ supportedCb s.cfg cb = true
          ∧ s' = { s with dma := { s.dma with cb := cb, next := 0, phase := .running } })
      ∨ ∃ cb, s.dma.phase = .stopped ∧ supportedCb s.cfg cb = false
          ∧ s' = { s with dma := { s.dma with cb := cb, next := 0 } }.markFault .unsupportedCb := by
  unfold dmaStart at h
  cases hp : s.dma.phase with
  | running => simp_all
  | stopped =>
    rw [hp, if_neg (by decide)] at h
    cases hl : loadBlock s.dma.conblkAd s with
    | error f => simp [hl] at h
    | ok b =>
      cases b with
      | misaligned => simp [hl] at h; simp [h]
      | block cb =>
        cases hs : supportedCb s.cfg cb with
        | true =>
          simp [hl, hs] at h
          exact .inr (.inr (.inl ⟨cb, rfl, hs, h.symm⟩))
        | false =>
          simp [hl, hs] at h
          exact .inr (.inr (.inr ⟨cb, rfl, hs, h.symm⟩))

/-- A write of CS with ACTIVE = 1 says once what it can do (R41, R64). -/
theorem csWrite_cases {p : Nat} {s s' : State} (h : csWrite p s = .ok s') :
    s.mapped = true ∧ (regInBlock s.cfg .dmaCs = false ∧ s' = s.markFault .regOutOfBlock
      ∨ regInBlock s.cfg .dmaCs = true ∧ dmaStart (writePriority p s) = .ok s') := by
  unfold csWrite at h
  cases hm : s.mapped <;> cases hr : regInBlock s.cfg .dmaCs <;> simp_all

/-- The DMA agent's step says once what it can do: nothing, a MOVE, the model fault of a misaligned read or of a
FIFO write out of its block, or the END (R63, R71, R184). -/
theorem dmaStep_cases {s t : State} (h : dmaStep s = .next t) :
    t = s
      ∨ (∃ w, s.dma.phase = .running ∧ s.dma.next < transferLength s ∧ flagDreq s = true
          ∧ fifoInBlock s.cfg = true ∧ busRead (s.dma.cb.source.toNat + 4 * s.dma.next) s = .ok (.word w)
          ∧ t = { s with fifo := s.fifo ++ [w], dma := { s.dma with next := s.dma.next + 1 } })
      ∨ (s.dma.phase = .running ∧ t = s.markFault .mixedWidth)
      ∨ (s.dma.phase = .running ∧ fifoInBlock s.cfg = false ∧ t = s.markFault .regOutOfBlock)
      ∨ (s.dma.phase = .running ∧ s.dma.next = transferLength s
          ∧ t = { s with dma := { s.dma with phase := .stopped } }) := by
  unfold dmaStep at h
  by_cases hp : s.dma.phase = .running
  · rw [if_pos hp] at h
    by_cases hn : s.dma.next < transferLength s
    · rw [if_pos hn] at h
      cases hd : flagDreq s with
      | false => rw [hd] at h; cases h; exact .inl rfl
      | true =>
        rw [hd, if_pos rfl] at h
        cases hb : busRead (s.dma.cb.source.toNat + 4 * s.dma.next) s with
        | error f => simp [hb] at h
        | ok b =>
          cases b with
          | misaligned => simp only [hb] at h; cases h; exact .inr (.inr (.inl ⟨hp, rfl⟩))
          | word w =>
            simp only [hb] at h
            cases hf : fifoInBlock s.cfg with
            | true => rw [hf, if_pos rfl] at h; cases h; exact .inr (.inl ⟨w, hp, hn, rfl, rfl, rfl, rfl⟩)
            | false =>
              rw [hf, if_neg (by decide)] at h
              cases h
              exact .inr (.inr (.inr (.inl ⟨hp, rfl, rfl⟩)))
    · rw [if_neg hn] at h
      by_cases he : s.dma.next = transferLength s
      · rw [if_pos he] at h; cases h; exact .inr (.inr (.inr (.inr ⟨hp, he, rfl⟩)))
      · rw [if_neg he] at h; cases h; exact .inl rfl
  · rw [if_neg hp] at h; cases h; exact .inl rfl

/-! ## The other agents -/

/-- PLATFORM's step says once what it can do: nothing, or it answers the request SEQ has made (R170). -/
theorem platformStep_cases (s : State) :
    ((∀ r, s.exchange ≠ .asked r) ∧ platformStep s = s)
      ∨ ∃ (r : Request) (a : Answer) (as : List Answer) (n : Nat), s.exchange = .asked r
          ∧ platformStep s = { s with exchange := .answered a, answers := as, draws := n } := by
  unfold platformStep
  cases hx : s.exchange with
  | quiet => exact .inl ⟨(fun r h => by cases h), rfl⟩
  | answered a => exact .inl ⟨(fun r h => by cases h), rfl⟩
  | asked r =>
    obtain ⟨as, n, h⟩ := nextAnswer_state s
    refine .inr ⟨r, (nextAnswer s).1, as, n, rfl, ?_⟩
    simp only [State.setExchange, h]

/-- HOST's step says once what it can do: it raises the termination request, or hands bytes over while the
sequencer is idle and none are waiting (R29, R210). -/
theorem hostStep_cases (s : State) :
    ∃ (acts : List HostAct) (n : Nat) (input : List Byte) (term : Bool),
      hostStep s = { s with input := input, termPending := term, hostActs := acts, draws := n }
        ∧ (s.termPending = true → term = true)
        ∧ (input = s.input ∨ (s.pc = .idle ∧ s.input = [] ∧ term = s.termPending)) := by
  obtain ⟨acts, n, h⟩ := nextHostAct_state s
  unfold hostStep
  cases hx : nextHostAct s with
  | mk a s' =>
    rw [hx] at h
    obtain rfl : s' = { s with hostActs := acts, draws := n } := h
    cases a with
    | terminate => exact ⟨acts, n, s.input, true, rfl, fun _ => rfl, .inl rfl⟩
    | command bytes =>
      simp only [handOver]
      split
      · rename_i hc
        exact ⟨acts, n, bytes, s.termPending, rfl, id, .inr ⟨hc.1, hc.2, rfl⟩⟩
      · exact ⟨acts, n, s.input, s.termPending, rfl, id, .inl rfl⟩

/-- The PWM agent's step says once what it can do: nothing, or one cycle with a mark within the range (R141). -/
theorem pwmStep_cases (s : State) :
    pwmEnabled s = false ∧ pwmStep s = s
      ∨ pwmEnabled s = true ∧ ∃ (rest : List Word) (m : Word), rest.length ≤ s.fifo.length
          ∧ m.toNat ≤ (s.pwm.channel s.ch).rng.toNat
          ∧ pwmStep s = { s with
              fifo := rest, out := s.out ++ [{ mark := m, range := (s.pwm.channel s.ch).rng }] } := by
  unfold pwmStep
  cases he : pwmEnabled s with
  | false => exact .inl ⟨rfl, by simp⟩
  | true =>
    refine .inr ⟨rfl, ?_⟩
    cases hf : s.fifo with
    | nil => exact ⟨[], 0, by simp, by simp, by simp⟩
    | cons w rest =>
      refine ⟨rest, cycleMark w (s.pwm.channel s.ch).rng, by simp, ?_, by simp⟩
      unfold cycleMark
      split <;> omega

/-! ## The step -/

/-- A step in a configuration R10 accepts is a move of the next agent (R14). -/
theorem step_next {s t : State} (h : step s = .next t) :
    configOk s.cfg = true ∧
      ((nextAgent s).1 = .seq ∧ seqStep (nextAgent s).2 = .next t
        ∨ (nextAgent s).1 ≠ .seq ∧ agentStep (nextAgent s).1 (nextAgent s).2 = .next t) := by
  unfold step at h
  cases hc : configOk s.cfg with
  | false => simp [hc] at h
  | true =>
    refine ⟨rfl, ?_⟩
    rw [hc, if_pos rfl] at h
    split at h
    · rename_i s' heq
      exact .inl ⟨by rw [heq], by rw [heq]; exact h⟩
    · rename_i a s' hne heq
      exact .inr ⟨by rw [heq]; exact hne, by rw [heq]; exact h⟩

/-- What a run of agents under a schedule keeps: what each of their steps keeps (R14). -/
theorem drive_keeps {P : State → Prop} (hstep : ∀ a s t, P s → agentStep a s = .next t → P t)
    (as : List Agent) : ∀ (s t : State) (rest : List Agent), P s → drive as s = .next (t, rest) → P t := by
  induction as with
  | nil => intro s t rest hs h; cases h; exact hs
  | cons a as ih =>
    intro s t rest hs h
    unfold drive at h
    split at h
    · cases h; exact hs
    · split at h
      · rename_i s' heq
        exact ih s' t rest (hstep a s s' hs heq) h
      · cases h
      · cases h

/-- A run under two schedules in turn is the run under the first, and then, if the command is still in
progress, under the second. -/
theorem drive_append (as bs : List Agent) : ∀ s, drive (as ++ bs) s =
    match drive as s with
    | .next (t, []) => drive bs t
    | .next (t, a :: rest) => .next (t, a :: rest ++ bs)
    | .fault f => .fault f
    | .refused r => .refused r := by
  induction as with
  | nil => intro s; rfl
  | cons a as ih =>
    intro s
    simp only [List.cons_append, drive]
    split
    · rfl
    · cases h : agentStep a s with
      | next s' => exact ih s'
      | fault f => rfl
      | refused r => rfl

/-- A run under no schedule goes nowhere. -/
@[simp] theorem drive_nil (s : State) : drive [] s = .next (s, []) := rfl

/-- One agent moves, and the rest of the schedule follows. -/
theorem drive_cons {a : Agent} {as : List Agent} {s s' : State} (hpc : s.pc ≠ .idle)
    (h : agentStep a s = .next s') : drive (a :: as) s = drive as s' := by
  simp [drive, hpc, h]

/-- A command that has ended uses up no more of the schedule. -/
theorem drive_idle {as : List Agent} {s : State} (hpc : s.pc = .idle) : drive as s = .next (s, as) := by
  cases as with
  | nil => rfl
  | cons a as => simp [drive, hpc]

/-- What performing a command keeps: what its first label, each agent's step and the spending of the
schedule keep. -/
theorem performFrom_keeps {P : State → Prop} (hstep : ∀ a s t, P s → agentStep a s = .next t → P t)
    (hsched : ∀ s rest, P s → P { s with sched := rest }) {pc : Pc} {s t : State} (hs : P (s.setPc pc))
    (h : performFrom pc s = .next t) : P t := by
  unfold performFrom at h
  split at h
  · rename_i s' rest heq
    cases h
    exact hsched s' rest (drive_keeps hstep s.sched (s.setPc pc) s' rest hs heq)
  · cases h
  · cases h

end Sys2Proof.Machine
end

