-- ==== Sys2Proof/Laws/Sequencer.lean ====
section
/-! SUPPORT. What the procedures of a transfer leave alone, what WAIT_IDLE and RELEASE can do, and the
inversions of dispatch, of the idle sequencer and of the agents that have no procedure. -/

namespace Sys2Proof.Machine

/-! ## What a transfer's micro-steps leave alone -/

/-- `t` is `s` in everything but the micro-step pointer, the staging register, the response, the model
fault, `s.dmaState`, the DMA channel and the region's bytes: what SEND's own steps may write (R221). -/
def SameSetting (s t : State) : Prop :=
  t = { s with
    pc := t.pc, stage := t.stage, resp := t.resp, fault := t.fault, dmaState := t.dmaState,
    dma := t.dma, mem := t.mem }

theorem SameSetting.refl (s : State) : SameSetting s s := rfl

theorem SameSetting.trans {a b c : State} (h : SameSetting a b) (h' : SameSetting b c) : SameSetting a c := by
  unfold SameSetting at *
  rw [h] at h'
  exact h'

theorem SameSetting.markFault (s : State) (f : ModelFault) : SameSetting s (s.markFault f) := rfl

theorem memWrite_same {off n : Nat} {v : Word} {s s' : State} (h : memWrite off n v s = .ok s') :
    SameSetting s s' := by
  obtain ⟨r, -, -, ⟨-, rfl⟩ | ⟨-, -, -, rfl⟩ | ⟨-, -, -, rfl⟩⟩ := memWrite_cases h <;> rfl

theorem csWrite_same {p : Nat} {s s' : State} (h : csWrite p s = .ok s') : SameSetting s s' := by
  obtain ⟨-, ⟨-, rfl⟩ | ⟨-, h⟩⟩ := csWrite_cases h
  · rfl
  · obtain ⟨-, rfl⟩ | ⟨-, rfl⟩ | ⟨_, -, -, rfl⟩ | ⟨_, -, -, rfl⟩ := dmaStart_cases h <;> rfl

/-- WAIT_IDLE says once what it can do: it holds, passes W1 having seen the channel stopped, or ends having
seen the FIFO empty; it never raises (R181, R182). -/
theorem waitStep_meets (w : WaitStep) (s : State) :
    (waitStep w s).Meets
      (fun l t => (l = w ∧ (t = s ∨ t = s.markFault .regOutOfBlock))
        ∨ (w = .w1 ∧ l = .w2 ∧ s.dma.phase = .stopped ∧ t = s))
      (fun t => w = .w2 ∧ s.fifo = [] ∧ t = { s with dmaState := .idle })
      (fun _ _ _ => False) := by
  cases w with
  | w1 =>
    refine Proc.meets_read (fun _ _ => ?_) (fun _ => .inl ⟨rfl, .inr rfl⟩)
    unfold flagActive
    cases hp : s.dma.phase with
    | running => exact .inl ⟨rfl, .inl rfl⟩
    | stopped => exact .inr ⟨rfl, rfl, rfl, rfl⟩
  | w2 =>
    refine Proc.meets_read (fun _ _ => ?_) (fun _ => .inl ⟨rfl, .inr rfl⟩)
    unfold flagEmpt
    cases hf : s.fifo with
    | nil => exact ⟨rfl, rfl, rfl⟩
    | cons w ws => exact .inl ⟨rfl, .inl rfl⟩

theorem waitStep_same (w : WaitStep) (s : State) :
    (waitStep w s).Meets (fun _ t => SameSetting s t) (SameSetting s) (fun _ _ _ => False) := by
  refine (waitStep_meets w s).mono ?_ ?_ (fun _ _ _ h => h)
  · rintro l t (⟨-, rfl | rfl⟩ | ⟨-, -, -, rfl⟩) <;> rfl
  · rintro t ⟨-, -, rfl⟩; rfl

theorem transmitStep_same (x : TransmitStep) (s : State) :
    (transmitStep x s).Meets (fun _ t => SameSetting s t) (SameSetting s) (fun _ _ t => SameSetting s t) := by
  have reg : ∀ {r : Reg} {eff : State → State} {l : TransmitStep}, SameSetting s (eff s) →
      (Proc.after (regWrite r eff s) (Proc.goto l)).Meets (fun _ t => SameSetting s t) (SameSetting s)
        (fun _ _ t => SameSetting s t) := fun he => Proc.meets_after fun s' h => by
    obtain ⟨-, ⟨-, rfl⟩ | ⟨-, rfl⟩⟩ := regWrite_cases h
    · exact he
    · rfl
  cases x with
  | x1 => simp only [transmitStep]; split <;> rfl
  | x2 => simp only [transmitStep]; split <;> rfl
  | x3 i =>
    simp only [transmitStep]
    split
    · rfl
    · exact Proc.meets_after fun s' h => memWrite_same h
  | x4 j =>
    simp only [transmitStep]
    split
    · trivial
    · split
      · rfl
      · exact Proc.meets_after fun s' h => memWrite_same h
  | x5 => exact reg rfl
  | x6 =>
    simp only [transmitStep]
    split
    · trivial
    · exact reg rfl
  | x7 => exact Proc.meets_after fun s' h => (csWrite_same h).trans rfl

/-- SEND's micro-steps leave everything alone but what SEND writes (R221 "State written"). -/
theorem sendStep_same (e : SendStep) (s : State) :
    (sendStep e s).Meets (fun _ t => SameSetting s t) (SameSetting s) (fun _ _ t => SameSetting s t) := by
  have wait : ∀ {w : WaitStep} {wrap : WaitStep → SendStep} {k : State → Proc SendStep},
      (∀ t, SameSetting s t → (k t).Meets (fun _ u => SameSetting s u) (SameSetting s)
        (fun _ _ u => SameSetting s u)) →
      ((waitStep w s).call wrap k).Meets (fun _ t => SameSetting s t) (SameSetting s)
        (fun _ _ t => SameSetting s t) := fun hk =>
    Proc.meets_call ((waitStep_same _ s).mono (fun _ _ h => h) hk (fun _ _ _ h => h.elim))
  cases e with
  | e1 => exact rfl
  | e2 w => exact wait fun t ht => ht
  | e3 x => exact Proc.meets_call ((transmitStep_same x s).mono (fun _ _ h => h) (fun _ h => h) (fun _ _ _ h => h))
  | e4 w => exact wait fun t ht => ht

/-! ## The register window -/

/-- MAP_CLOSE says once what it can do: nothing where nothing is mapped, else it gives the window back (R173). -/
theorem mapClose_cases (s : State) :
    s.mapped = false ∧ mapClose s = s
      ∨ s.mapped = true ∧ mapClose s = { s with
          mapped := false, plat := { s.plat with memDevice := false, blocks := [] } } := by
  unfold mapClose
  cases hm : s.mapped with
  | false => exact .inl ⟨rfl, rfl⟩
  | true => exact .inr ⟨rfl, rfl⟩

/-! ## Dispatch -/

/-- Dispatch says once what it can do: perform the command, answer what the gate says, or refuse a command
handed over while another is in progress (R210, R211). -/
theorem dispatch_next {gate : Life → Gate} {perform : State → Host.Outcome State Fault Refusal} {s t : State}
    (h : dispatch gate perform s = .next t) :
    s.pc = .idle ∧ (gate s.life = .perform ∧ perform s = .next t
      ∨ ∃ st d, gate s.life = .reply st d ∧ t = s.respond st d []) := by
  unfold dispatch at h
  by_cases hp : s.pc = .idle
  · refine ⟨hp, ?_⟩
    rw [if_pos hp] at h
    cases hg : gate s.life with
    | perform => rw [hg] at h; exact .inl ⟨rfl, h⟩
    | reply st d => rw [hg] at h; cases h; exact .inr ⟨st, d, rfl, rfl⟩
  · rw [if_neg hp] at h; cases h

/-- A command the gate lets through is performed (R211). -/
theorem dispatch_perform {gate : Life → Gate} {perform : State → Host.Outcome State Fault Refusal} {s : State}
    (hp : s.pc = .idle) (hg : gate s.life = .perform) : dispatch gate perform s = perform s := by
  simp [dispatch, hp, hg]

/-- A command the gate answers has no other effect (R211). -/
theorem dispatch_reply {gate : Life → Gate} {perform : State → Host.Outcome State Fault Refusal} {s : State}
    {st : Status} {d : Detail} (hp : s.pc = .idle) (hg : gate s.life = .reply st d) :
    dispatch gate perform s = .next (s.respond st d []) := by
  simp [dispatch, hp, hg]

/-! ## The framebuffer -/

/-- SET_COLOR changes nothing but one entry of the framebuffer, and keeps its length (R216). -/
theorem setEntry_fb (index r g b : Int) (s : State) :
    ∃ fb, setEntry index r g b s = { s with fb := fb } ∧ fb.length = s.fb.length := by
  unfold setEntry
  split
  · exact ⟨s.fb, rfl, rfl⟩
  · exact ⟨_, rfl, by simp⟩

@[simp] theorem ledElems_length (s : State) (c : Color) : (ledElems s c).length = bitsPerLed := by
  simp [ledElems]

/-- `|W| = 24 × |fb| + resetGapLength` (R220). -/
theorem waveform_length (s : State) : (waveform s).length = capacityFor s.fb.length s.resetGapLength := by
  simp [waveform, capacityFor, List.length_flatMap]

/-! ## Bus reads -/

/-- The DMA's read of an aligned word inside the region whose bytes are written gives that word (R12, R61). -/
theorem busRead_word {s : State} {r : Region} {off : Nat} {w : Word} (hr : s.region = some r)
    (hs : r.has off 4 = true) (ha : off % 4 = 0) (hw : getWord r off s.mem = some w) :
    busRead (cellOf r off) s = .ok (.word w) := by
  simp [busRead, cellOf, hr, hs, ha, hw]

/-- The address TRANSMIT forms, where the region has it (R66). -/
theorem regionAddr_ok {s : State} {r : Region} {off : Nat} (hr : s.region = some r) (hs : r.has off 1 = true) :
    ∃ a : Word, regionAddr off s = .ok a ∧ busAddr r off = some a ∧ a.toNat = cellOf r off := by
  obtain ⟨a, ha, ht⟩ := busAddr_some hs
  exact ⟨a, by simp [regionAddr, hr, ha], ha, ht⟩

/-! ## The agents without a procedure -/

/-- The CLK agent's step says once what it can do (R45). -/
theorem clkStep_cases (s : State) :
    s.cm.enab = true ∧ clkStep s = s
      ∨ s.cm.enab = false ∧ clkStep s =
          { s with cm := { s.cm with busy := false }, clk := { s.clk with running := false } } := by
  unfold clkStep
  cases s.cm.enab <;> simp

/-- The idle sequencer says once what it can find: a termination request to serve, nothing, a reserved
opcode, a short byte string, or a command (R93, R210, R284). -/
theorem fetch_cases (s : State) :
    (terminationDue s = true ∧ fetch s = .done (serveTermination s))
      ∨ terminationDue s = false ∧
        ((decode s.input = .empty ∧ fetch s = .done s)
          ∨ (∃ op, decode s.input = .short op ∧ fetch s = .refused .transport)
          ∨ (∃ op rest, decode s.input = .reserved op rest
              ∧ fetch s = .done (illegalCommand { s with input := rest }))
          ∨ ∃ i rest, decode s.input = .command i rest ∧ fetch s = .command i { s with input := rest }) := by
  unfold fetch
  cases terminationDue s with
  | true => exact .inl ⟨rfl, rfl⟩
  | false =>
    refine .inr ⟨rfl, ?_⟩
    cases decode s.input with
    | empty => exact .inl ⟨rfl, rfl⟩
    | short op => exact .inr (.inl ⟨op, rfl, rfl⟩)
    | reserved op rest => exact .inr (.inr (.inl ⟨op, rest, rfl, rfl⟩))
    | command i rest => exact .inr (.inr (.inr ⟨i, rest, rfl, rfl⟩))

end Sys2Proof.Machine
end

