-- ==== Sys2Proof/Machine/Registers.lean ====
section
/-! DEFINITION. The fields of the peripheral registers (10_state.md R33): which register each lies in, where in
it (REG_LAYOUT, R9), what it holds, and the 32-bit word a register shows (20_memory.md R62). The rules address
registers and fields by name (R33), so no outcome of a step depends on these positions. -/

namespace Sys2Proof.Machine

/-- The fields R33 names. RNG, DAT, FIF1, CLO, CONBLK_AD, GPSET and GPCLR are whole registers. -/
inductive Field where
  | fsel (pin : Nat)
  | cmCtlPasswd
  | src
  | enab
  | busy
  | cmDivPasswd
  | divi
  | divf
  | pwen (c : Channel)
  | mode (c : Channel)
  | rptl (c : Channel)
  | sbit (c : Channel)
  | pola (c : Channel)
  | usef (c : Channel)
  | msen (c : Channel)
  | empt
  | dmacEnab
  | dreq
  | panic
  | active
  | priority
  | err
deriving DecidableEq, Repr

/-- The register a field lies in (R33). -/
def fieldReg : Field → Reg
  | .fsel pin => .gpfsel pin
  | .cmCtlPasswd => .cmCtl
  | .src => .cmCtl
  | .enab => .cmCtl
  | .busy => .cmCtl
  | .cmDivPasswd => .cmDiv
  | .divi => .cmDiv
  | .divf => .cmDiv
  | .pwen _ => .pwmCtl
  | .mode _ => .pwmCtl
  | .rptl _ => .pwmCtl
  | .sbit _ => .pwmCtl
  | .pola _ => .pwmCtl
  | .usef _ => .pwmCtl
  | .msen _ => .pwmCtl
  | .empt => .pwmSta
  | .dmacEnab => .pwmDmac
  | .dreq => .pwmDmac
  | .panic => .pwmDmac
  | .active => .dmaCs
  | .priority => .dmaCs
  | .err => .dmaDebug

/-- Where the fields of a channel's group lie in CTL. -/
def ctlGroup (l : RegLayout) : Channel → CtlGroup
  | .zero => l.ctl0
  | .one => l.ctl1

/-- Where a field lies in its register (R9 REG_LAYOUT). -/
def fieldBits (l : RegLayout) : Field → BitField
  | .fsel pin => (fselPlace l pin).bits
  | .cmCtlPasswd => l.cmCtlPasswd
  | .src => l.cmSrc
  | .enab => l.cmEnab
  | .busy => l.cmBusy
  | .cmDivPasswd => l.cmDivPasswd
  | .divi => l.cmDivi
  | .divf => l.cmDivf
  | .pwen c => oneBit (ctlGroup l c).pwen
  | .mode c => oneBit (ctlGroup l c).mode
  | .rptl c => oneBit (ctlGroup l c).rptl
  | .sbit c => oneBit (ctlGroup l c).sbit
  | .pola c => oneBit (ctlGroup l c).pola
  | .usef c => oneBit (ctlGroup l c).usef
  | .msen c => oneBit (ctlGroup l c).msen
  | .empt => l.staEmpt
  | .dmacEnab => l.dmacEnab
  | .dreq => l.dmacDreq
  | .panic => l.dmacPanic
  | .active => l.csActive
  | .priority => l.csPriority
  | .err => l.debugErr

/-- The bit that MODE shows. DESIGN CHOICE (log 30): R33 names "PWM vs serialiser" without numbers; in every layout
0 is PWM and 1 the serialiser. -/
def modeCode : PwmMode → Nat
  | .pwm => 0
  | .serialiser => 1

/-- What a field holds. PASSWD is write-only (R33): it shows 0 (DESIGN CHOICE, log 20). A value wider than its field
is held whole (DESIGN CHOICE, log 31). -/
def fieldValue (s : State) : Field → Nat
  | .fsel pin => readFsel s pin
  | .cmCtlPasswd => 0
  | .src => s.cm.src
  | .enab => s.cm.enab.toNat
  | .busy => (flagBusy s).toNat
  | .cmDivPasswd => 0
  | .divi => s.cm.divi
  | .divf => s.cm.divf
  | .pwen c => (s.pwm.channel c).pwen.toNat
  | .mode c => modeCode (s.pwm.channel c).mode
  | .rptl c => (s.pwm.channel c).rptl.toNat
  | .sbit c => (s.pwm.channel c).sbit.toNat
  | .pola c => (s.pwm.channel c).pola.toNat
  | .usef c => (s.pwm.channel c).usef.toNat
  | .msen c => (s.pwm.channel c).msen.toNat
  | .empt => (flagEmpt s).toNat
  | .dmacEnab => s.pwm.dmacEnab.toNat
  | .dreq => s.pwm.dmacDreq
  | .panic => s.pwm.dmacPanic
  | .active => (flagActive s).toNat
  | .priority => s.dma.priority
  | .err => s.dma.err.toNat

/-- The fields of one channel's group of CTL (R36). -/
def groupFields (c : Channel) : List Field := [.pwen c, .mode c, .rptl c, .sbit c, .pola c, .usef c, .msen c]

/-- The fields of a register, in a layout. -/
def regFields (l : RegLayout) : Reg → List Field
  | .gpfsel pin =>
    (l.fselPlaces.filter (fun p => p.offset == (fselPlace l pin).offset)).map (fun p => .fsel p.pin)
  | .gpset => []
  | .gpclr => []
  | .cmCtl => [.cmCtlPasswd, .src, .enab, .busy]
  | .cmDiv => [.cmDivPasswd, .divi, .divf]
  | .pwmCtl => groupFields .zero ++ groupFields .one
  | .pwmSta => [.empt]
  | .pwmDmac => [.dmacEnab, .dreq, .panic]
  | .pwmRng _ => []
  | .pwmDat _ => []
  | .pwmFif1 => []
  | .timerClo => []
  | .dmaCs => [.active, .priority]
  | .dmaConblk => []
  | .dmaDebug => [.err]

/-- The word made of these fields. -/
def fieldsWord (s : State) (fs : List Field) : Word :=
  fs.foldl (fun w f => w ||| placeField (fieldBits s.cfg.layout f) (fieldValue s f)) 0

/-- The 32-bit word a register shows (R62): its fields at their places, and 0 in the bits that no field of R33
names (DESIGN CHOICE, log 20); `none` for FIF1, which is a write port (R39, R64). -/
def regWord (s : State) : Reg → Option Word
  | .gpset => some s.gpio.gpset
  | .gpclr => some s.gpio.gpclr
  | .pwmRng c => some (s.pwm.channel c).rng
  | .pwmDat c => some (s.pwm.channel c).dat
  | .pwmFif1 => none
  | .timerClo => some s.clo
  | .dmaConblk => some s.dma.conblkAd
  | r => some (fieldsWord s (regFields s.cfg.layout r))

end Sys2Proof.Machine
end

