-- ==== Sys2Proof/Tests/Slice0.lean ====
section
/-! SUPPORT. Tests: the vectors of 95_test_vectors.md (each named in its docstring), the refusal of
ill-formed terms, and, for each statement with hypotheses, a witness that meets them all together. The small
states come from the helpers at the top; no expected value was taken from the model. -/

open Sys2Proof Sys2Proof.Machine

namespace Sys2Proof.Tests

/-! ## Helpers -/

/-- EX6 (95_test_vectors.md §0) with a settle time of 2 µs, so that the schedules stay short. -/
def ex6 : Config := { Config.ex1 with tResetNs := 2500, settleUs := 2 }

/-- EX1 with a given divider (EX2, EX4 and the vectors T-2 to T-10). -/
def exDiv (d : Nat) : Config := { Config.ex1 with clkDiv := some d }

/-- Power-on in EX6. -/
def fresh : State := { State.reset with cfg := ex6 }

/-- The region of the states below. -/
def strip : Region := { handle := 7, vbase := 0x10000, bbase := 0xC0100000, size := 4096 }

/-- Ready in EX6 with this framebuffer, as R314 describes it (bus base 0xC0100000, as in §0). -/
def ready (fb : List Color) : State :=
  { fresh with
    life := .ready
    pin := 18
    ledCount := fb.length
    div := 1
    range := 24
    markZero := 8
    markOne := 15
    resetGapLength := 2
    mapped := true
    region := some strip
    capacity := fb.length * 24 + 2
    fb := fb
    gpio := { fsel := [(18, 2)], gpset := 0, gpclr := 0 }
    cm := { src := 1, enab := true, busy := true, divi := 1, divf := 0 }
    pwm := { ch0 := { PwmChannel.reset with pwen := true, usef := true, msen := true, rng := 24 }
             ch1 := PwmChannel.reset, dmacEnab := true, dmacDreq := 4, dmacPanic := 2 }
    clk := { running := true, src := 1, divi := 1 }
    plat := { memDevice := true, blocks := allBlocks, channel := true
              alloc := some { handle := 7, size := 4096, align := 4096, flags := 4 }
              locked := some 0xC0100000
              mapping := some { phys := 0x100000, virt := 0x10000, size := 4096 } } }

/-- Ready in EX1's colours with three black LEDs (§4's vectors G-15 to G-24). -/
def three : State := ready [0, 0, 0]

/-- Halted. -/
def halted : State := { fresh with life := .halted, termPending := true }

theorem configOk_ex6 : configOk ex6 = true := by decide +kernel

theorem deriveTiming_ex6 : deriveTiming ex6
    = some { div := 1, range := 24, markZero := 8, markOne := 15, resetGapLength := 2 } := by decide +kernel

/-- The next state, where the outcome is one. -/
def after (x : Host.Outcome State Fault Refusal) : Option State :=
  match x with
  | .next t => some t
  | _ => none

/-- What a field of the next state holds. -/
def seen {α : Type} (f : State → α) (x : Host.Outcome State Fault Refusal) : Option α := (after x).map f

theorem next_of_after {x : Host.Outcome State Fault Refusal} (h : (after x).isSome = true) :
    ∃ t, x = .next t := by
  cases x <;> simp_all [after]

/-- The bytes of the response. -/
def answer (s : State) : List Byte := responseBytes s.resp

/-! ## Well-formedness: each check refuses an ill-formed term (R91) -/

theorem test_wf_bounds : (Instr.setColor (-2147483648) 2147483647 0 (-1)).wf = true := by decide
theorem test_wf_setup_pin : (Instr.setup 2147483648 3).wf = false := by decide
theorem test_wf_setup_leds : (Instr.setup 18 (-2147483649)).wf = false := by decide
theorem test_wf_setColor : (Instr.setColor 0 0 0 4294967296).wf = false := by decide
theorem test_wf_setColorHsb : (Instr.setColorHsb 2147483648 0 0 0).wf = false := by decide
theorem test_wf_hsbToRgb : (Instr.hsbToRgb 0 (-2147483649) 0).wf = false := by decide
theorem test_wf_no_operands :
    Instr.send.wf = true ∧ Instr.clearAll.wf = true ∧ Instr.cleanup.wf = true ∧ Instr.encode.wf = true := by
  decide

/-! ## Decoding: words written out byte by byte from R91 and R92 (§3) -/

/-- E-1 and E-2, with a byte of the next command after them. -/
theorem test_decode_setup :
    decode [0x01, 0x12, 0x00, 0x00, 0x00, 0x03, 0x00, 0x00, 0x00, 0x04] = .command (.setup 18 3) [0x04]
      ∧ decode [0x01, 0x12, 0x00, 0x00, 0x00, 0xFF, 0xFF, 0xFF, 0xFF] = .command (.setup 18 (-1)) [] := by
  decide

/-- E-5 and E-6. -/
theorem test_decode_setColor :
    decode [0x02, 0xFF, 0xFF, 0xFF, 0xFF, 0x01, 0x00, 0x00, 0x00, 0x02, 0x00, 0x00, 0x00, 0x03, 0x00, 0x00, 0x00]
        = .command (.setColor (-1) 1 2 3) []
      ∧ decode [0x02, 0x01, 0x00, 0x00, 0x00, 0x2C, 0x01, 0x00, 0x00, 0xFB, 0xFF, 0xFF, 0xFF, 0x80, 0x00, 0x00, 0x00]
        = .command (.setColor 1 300 (-5) 128) [] := by
  decide

/-- E-8. -/
theorem test_decode_setColorHsb :
    decode [0x03, 0x00, 0x00, 0x00, 0x00, 0x90, 0x01, 0x00, 0x00, 0xFF, 0x00, 0x00, 0x00, 0xFF, 0x00, 0x00, 0x00]
      = .command (.setColorHsb 0 400 255 255) [] := by
  decide

/-- E-9. -/
theorem test_decode_send : decode [0x04] = .command .send [] := by decide
/-- E-10. -/
theorem test_decode_clearAll : decode [0x05] = .command .clearAll [] := by decide
/-- E-11. -/
theorem test_decode_cleanup : decode [0x06] = .command .cleanup [] := by decide
/-- E-12. -/
theorem test_decode_encode : decode [0x07] = .command .encode [] := by decide

/-- E-14. -/
theorem test_decode_hsbToRgb :
    decode [0x08, 0x1E, 0x00, 0x00, 0x00, 0xFF, 0x00, 0x00, 0x00, 0xFF, 0x00, 0x00, 0x00]
      = .command (.hsbToRgb 30 255 255) [] := by
  decide

/-- E-15: the reserved opcodes at both ends of their ranges, with length 1 (R93, R101). -/
theorem test_decode_reserved :
    decode [0x00, 0x04] = .reserved 0x00 [0x04] ∧ decode [0x09] = .reserved 0x09 []
      ∧ decode [0xFF, 0x01] = .reserved 0xFF [0x01] := by
  decide

/-- E-16: four bytes of a SETUP are no command (R93). -/
theorem test_decode_short : decode [0x01, 0x12, 0x00, 0x00] = .short 0x01 := by decide

/-- E-1 as a word of spec/opcode_table.json's numbering, and SETUP's opcode alone: operands of zeros. -/
theorem test_decodeTableWord :
    decodeTableWord 72 0x000000030000001201 = some (.setup 18 3)
      ∧ decodeTableWord 8 0x01 = some (.setup 0 0) ∧ decodeTableWord 8 0x08 = some (.hsbToRgb 0 0 0)
      ∧ decodeTableWord 8 0x09 = none := by
  decide

/-- E-4. -/
theorem test_encode_setColor :
    encode (.setColor 0 255 0 0)
      = [0x02, 0x00, 0x00, 0x00, 0x00, 0xFF, 0x00, 0x00, 0x00, 0x00, 0x00, 0x00, 0x00, 0x00, 0x00, 0x00, 0x00] := by
  decide

/-- R102's written form of E-6 (§3). -/
theorem test_assembly : assembly (.setColor 1 300 (-5) 128) = "SET_COLOR 1, 300, -5, 128" := by decide +kernel

/-- S-1 to S-10: the two code bytes of a response (R94). -/
theorem test_responseBytes :
    responseBytes { status := .hardwareMapError, detail := .block .pwm, payload := [] } = [0x01, 0x13]
      ∧ responseBytes { status := .allocationError, detail := .lock, payload := [] } = [0x02, 0x23]
      ∧ responseBytes { status := .configurationError, detail := .clockBusyTimeout, payload := [] } = [0x03, 0x04]
      ∧ responseBytes { status := .capacityError, detail := .payloadTooLong, payload := [] } = [0x04, 0x30] := by
  decide

/-! ## The timing derivation (§2) -/

/-- T-1. -/
theorem test_timing_t1 : deriveTiming Config.ex1
    = some { div := 1, range := 24, markZero := 8, markOne := 15, resetGapLength := 40 } := by decide +kernel

/-- T-3, T-5 and T-7. -/
theorem test_timing_given :
    deriveTiming (exDiv 3) = some { div := 3, range := 8, markZero := 3, markOne := 5, resetGapLength := 40 }
      ∧ deriveTiming (exDiv 6) = some { div := 6, range := 4, markZero := 1, markOne := 3, resetGapLength := 40 }
      ∧ deriveTiming (exDiv 8) = some { div := 8, range := 3, markZero := 1, markOne := 2, resetGapLength := 40 } := by
  decide +kernel

/-- T-6, T-8, T-9 and T-10: no valid divider. -/
theorem test_timing_refused :
    deriveTiming (exDiv 7) = none ∧ deriveTiming (exDiv 9) = none ∧ deriveTiming (exDiv 10) = none
      ∧ deriveTiming (exDiv 11) = none := by
  decide +kernel

/-- T-11: the first divider is not valid, the second is. -/
theorem test_timing_t11 : deriveTiming { Config.ex1 with fSrcHz := 500000000 }
    = some { div := 2, range := 313, markZero := 100, markOne := 200, resetGapLength := 40 } := by decide +kernel

/-- T-14: 67.5 ticks round half up. -/
theorem test_timing_t14 : deriveTiming { Config.ex1 with fSrcHz := 54000000 }
    = some { div := 1, range := 68, markZero := 22, markOne := 43, resetGapLength := 40 } := by decide +kernel

/-- T-15, with a small DIV_MAX: AUTO finds no divider. -/
theorem test_timing_t15 : deriveTiming { Config.ex1 with fSrcHz := 1000000, divMax := 3 } = none := by decide +kernel

/-- T-16, T-17 and T-18: the reset gap. -/
theorem test_timing_gap :
    gapLength { Config.ex1 with tResetNs := 2500 } 24 1 = 2
      ∧ gapLength { Config.ex1 with tResetNs := 280000 } 24 1 = 224
      ∧ gapLength { Config.ex1 with tResetNs := 1 } 24 1 = 1 := by
  decide

/-- §4's table of region sizes (R68), and G-3's. -/
theorem test_regionSize :
    regionSize Config.ex1 2 = 4096 ∧ regionSize Config.ex1 1016 = 4096 ∧ regionSize Config.ex1 1017 = 8192
      ∧ regionSize Config.ex1 24616 = 102400 := by
  decide

/-- §0: `fifoBus` and TI_VALUE in the layout of GK1. -/
theorem test_layout_words : fifoBus Config.ex1 = 0x7E20C018 ∧ tiValue Config.ex1 = 0x04050148 := by decide

/-- EX1 meets R10 (§0), and a configuration that breaks it is refused as a whole. -/
theorem test_configOk :
    configOk Config.ex1 = true ∧ configOk { Config.ex1 with dreqThreshold := 9 } = false
      ∧ configOk { Config.ex1 with pageSize := 100 } = false ∧ configOk { Config.ex1 with pinMap := [] } = false := by
  decide +kernel

/-! ## Colours (§3, §5) -/

/-- P-1, P-3 in both orders. -/
theorem test_pack :
    pack .grb 255 0 0 = 0x00FF00 ∧ pack .rgb 255 0 0 = 0xFF0000
      ∧ pack .grb 0x12 0x34 0x56 = 0x341256 ∧ pack .rgb 0x12 0x34 0x56 = 0x123456 := by
  decide

/-- B-1 and B-5: the elements of a colour, most significant bit first. -/
theorem test_ledElems :
    ledElems three 0x341256
        = [8, 8, 15, 15, 8, 15, 8, 8, 8, 8, 8, 15, 8, 8, 15, 8, 8, 15, 8, 15, 8, 15, 15, 8]
      ∧ ledElems three 0x800001 = 15 :: List.replicate 22 8 ++ [15] := by
  decide

/-- H-5, H-6, H-7, H-10, H-11, H-13: the sectors and their boundaries. -/
theorem test_hsb_sectors :
    hsbToRgb 30 255 255 = (255, 127, 0) ∧ hsbToRgb 60 255 255 = (255, 255, 0)
      ∧ hsbToRgb 59 255 255 = (255, 250, 0) ∧ hsbToRgb 239 255 255 = (0, 4, 255)
      ∧ hsbToRgb 241 255 255 = (4, 0, 255) ∧ hsbToRgb 359 255 255 = (255, 0, 4) := by
  decide

/-- H-17 to H-20 and H-23: values off the sectors' edges. -/
theorem test_hsb_inner :
    hsbToRgb 200 128 200 = (99, 166, 200) ∧ hsbToRgb 45 100 50 = (50, 45, 30)
      ∧ hsbToRgb 210 255 128 = (0, 64, 128) ∧ hsbToRgb 330 64 255 = (255, 191, 223)
      ∧ hsbToRgb 119 200 100 = (22, 100, 21) := by
  decide

/-- H-15, H-16, H-24, H-25: clamped operands. -/
theorem test_hsb_clamped :
    hsbColor 400 255 255 = (255, 0, 4) ∧ hsbColor (-5) 255 255 = (255, 0, 0)
      ∧ hsbColor 0 300 300 = (255, 0, 0) ∧ hsbColor (-1) (-1) (-1) = (0, 0, 0) := by
  decide

/-! ## The commands, one step each -/

/-- Power-on in EX6 as a SETUP that PLATFORM grants finds it. -/
def granted : State :=
  { fresh with answers := grantAll 7 0xC0100000 0x10000, sched := setupSchedule ex6 }

/-- G-2 in EX6: the response, the capacity and the region's size. -/
theorem test_setup_completes :
    seen (fun t => (answer t, t.life, t.capacity, t.region.map Region.size, t.fb)) (exec (.setup 18 0) granted)
      = some ([0x00, 0x00], .ready, 2, some 4096, []) := by
  decide +kernel

/-- G-10: the map of PWM, the third block, fails; nothing stays mapped, and the response is `01 13`. -/
theorem test_setup_map_fails :
    seen (fun t => (answer t, t.life, t.mapped, t.plat)) (exec (.setup 18 2) { fresh with
        answers := List.replicate 3 { ok := true, value := 0 } ++ [{ ok := false, value := 0 }]
        sched := seqSteps 3 ++ requests 4 })
      = some ([0x01, 0x13], .unconfigured, false, Platform.nothing) := by
  decide +kernel

/-- G-16 and G-20. -/
theorem test_setColor_writes :
    seen State.fb (exec (.setColor 1 300 (-5) 128) three) = some [0, 0x00FF80, 0]
      ∧ seen State.fb (exec (.setColor 2 0x12 0x34 0x56) three) = some [0, 0, 0x341256] := by
  decide

/-- G-17 and G-18: an index outside 0..2 writes nothing, with status OK. -/
theorem test_setColor_ignores :
    exec (.setColor (-1) 1 2 3) three = .next three ∧ exec (.setColor 3 1 2 3) three = .next three := by
  constructor <;> rfl

/-- G-22 and G-23. -/
theorem test_setColorHsb :
    seen State.fb (exec (.setColorHsb 0 400 255 255) three) = some [0x00FF04, 0, 0]
      ∧ seen State.fb (exec (.setColorHsb 1 200 128 200) three) = some [0, 0xA663C8, 0] := by
  decide

/-- Ready in EX6 with no LED, the schedule of a SEND before it (the start of §9's T-1). -/
def sending0 : State := { ready [] with sched := sendSchedule 2 }

/-- T-1 (§9): two low cycles of the frame, and afterwards the channel is stopped and the FIFO empty. -/
theorem test_send_t1 :
    seen (fun t => (answer t, t.out, t.fifo, t.dma.phase, t.dmaState)) (exec .send sending0)
      = some ([0x00, 0x00], [⟨0, 24⟩, ⟨0, 24⟩], [], .stopped, .idle) := by
  decide +kernel

/-- §6: the control block and CONBLK_AD after that SEND, for N = 2. -/
theorem test_send_controlBlock :
    seen (fun t => (t.dma.cb.ti, t.dma.cb.source, t.dma.cb.dest, t.dma.cb.length, t.dma.conblkAd, t.dma.priority))
      (exec .send sending0) = some (0x04050148, 0xC0100020, 0x7E20C018, 8, 0xC0100000, 8) := by
  decide +kernel

/-- CLEAR_ALL blackens the framebuffer and its frame is all markZero, then the gap (R225). -/
theorem test_clearAll :
    seen (fun t => (t.fb, t.out)) (exec .clearAll { ready [0xFFFFFF] with sched := clearSchedule 26 })
      = some ([0], List.replicate 24 ⟨8, 24⟩ ++ [⟨0, 24⟩, ⟨0, 24⟩]) := by
  decide +kernel

/-- I-3: after CLEANUP the block is Unconfigured and holds nothing; the clock runs and PWEN0 is 1. -/
theorem test_cleanup :
    seen (fun t => (answer t, t.life, t.mapped, t.region, t.plat))
        (exec .cleanup { ready [] with sched := cleanupSchedule 2 })
        = some ([0x00, 0x00], .unconfigured, false, none, Platform.nothing)
      ∧ seen (fun t => (t.clk.running, t.pwm.ch0.pwen, t.fifo))
        (exec .cleanup { ready [] with sched := cleanupSchedule 2 }) = some (true, true, []) := by
  decide +kernel

/-- X-2: CLEANUP at power-on answers OK and changes nothing. -/
theorem test_cleanup_unconfigured : exec .cleanup fresh = .next fresh := rfl

/-- G-25's data part, with EX6's gap of 2: a u32 count of 26, then the elements of 0x800001 and the gap. -/
theorem test_encode :
    seen answer (exec .encode (ready [0x800001]))
      = some ([0x00, 0x00, 0x1A, 0x00, 0x00, 0x00, 0x0F] ++ List.replicate 22 0x08 ++ [0x0F, 0x00, 0x00]) := by
  decide

/-- S-11, in Unconfigured. -/
theorem test_hsbToRgb : seen answer (exec (.hsbToRgb 0 255 255) fresh) = some [0x00, 0x00, 0xFF, 0x00, 0x00] := by
  decide

/-! ## The gate (§4, §7) -/

/-- X-1, X-9 and G-14: not ready, and SETUP in Ready before any other check. -/
theorem test_gate :
    seen answer (exec .send fresh) = some [0x05, 0x40]
      ∧ seen answer (exec (.setup 7 (-1)) three) = some [0x02, 0x20] := by
  decide

/-- X-6: in Halted every command answers `07 60`, a reserved opcode too. -/
theorem test_gate_halted :
    seen answer (exec (.setup 18 3) halted) = some [0x07, 0x60]
      ∧ seen answer (exec .cleanup halted) = some [0x07, 0x60]
      ∧ seen answer (exec (.hsbToRgb 0 0 0) halted) = some [0x07, 0x60]
      ∧ seen answer (step (placeCommand [0x00] { halted with life := .halted })) = some [0x07, 0x60] := by
  decide +kernel

/-- X-3 and X-4: a reserved opcode answers `06 50`. -/
theorem test_reserved_opcode :
    seen answer (step (placeCommand [0x09] fresh)) = some [0x06, 0x50]
      ∧ seen answer (step (placeCommand [0xFF] three)) = some [0x06, 0x50] := by
  decide +kernel

/-- X-7: a termination request in Unconfigured makes the block Halted at the next idle step. -/
theorem test_termination_unconfigured :
    seen State.life (step { fresh with termPending := true, sched := [.seq] }) = some .halted := by
  decide +kernel

/-- X-5's second half: in Ready the request starts CLEANUP's steps before the next command is taken. -/
theorem test_termination_ready :
    seen (fun t => (t.pc, t.input)) (step { three with termPending := true, input := [0x04], sched := [.seq] })
      = some (.terminate (.c1 .fill), [0x04]) := by
  decide +kernel

/-- A word placed where the next command is taken from runs as the first command after reset: SEND answers
NOT_SET_UP. -/
theorem test_withFetchWord : seen answer (step (State.reset.withFetchWord 8 0x04)) = some [0x05, 0x40] := by
  decide +kernel

/-- R93: bytes shorter than their opcode's format are refused by the transport. -/
theorem test_transport : step (placeCommand [0x01, 0x12] fresh) = .refused .transport := by rfl

/-! ## The micro-steps and the agents (§2, §6, §9) -/

/-- K-2: 99 µs elapsed go on, 100 µs raise, over the timer's wrap. -/
theorem test_k4_timeout :
    elapsed 0xFFFFFFF0 0x53 = 99 ∧ elapsed 0xFFFFFFF0 0x54 = 100
      ∧ (∃ t, configureStep ⟨18, .zero, 2⟩ (.k4Time 0xFFFFFFF0) { three with clo := 0x53 } = .goto (.k4Busy 0xFFFFFFF0) t)
      ∧ ∃ t, configureStep ⟨18, .zero, 2⟩ (.k4Time 0xFFFFFFF0) { three with clo := 0x54 }
          = .raise .configurationError .clockBusyTimeout t := by
  exact ⟨by decide, by decide, ⟨_, rfl⟩, ⟨_, rfl⟩⟩

/-- K-3: 109 µs hold at K7, 110 µs pass to K8. -/
theorem test_k7_settle :
    (∃ t, configureStep ⟨18, .zero, 2⟩ (.k7Wait 0xFFFFFFA0) { three with cfg := Config.ex1, clo := 0x0D }
        = .goto (.k7Wait 0xFFFFFFA0) t)
      ∧ ∃ t, configureStep ⟨18, .zero, 2⟩ (.k7Wait 0xFFFFFFA0) { three with cfg := Config.ex1, clo := 0x0E }
        = .goto .k8 t :=
  ⟨⟨_, rfl⟩, ⟨_, rfl⟩⟩

/-- K-4: K2 is a read-modify-write of one channel's group; the other channel keeps PWEN 1 and MSEN 0. -/
theorem test_k2_other_channel :
    (writeCtlGroup .zero { fresh with pwm := { fresh.pwm with
        ch1 := { PwmChannel.reset with pwen := true } } }).pwm.ch1 = { PwmChannel.reset with pwen := true } := by
  decide

/-- P-1, P-4, P-5 and P-6 of §2: a mark, a saturated mark, an empty FIFO, and no step without PWEN. -/
theorem test_pwm_step :
    (pwmStep { three with fifo := [15, 8] }).out = [⟨15, 24⟩] ∧ (pwmStep { three with fifo := [15, 8] }).fifo = [8]
      ∧ (pwmStep { three with fifo := [30] }).out = [⟨24, 24⟩]
      ∧ (pwmStep three).out = [⟨0, 24⟩]
      ∧ (pwmStep (writePwen .zero false { three with fifo := [15] })).fifo = [15] := by
  decide

/-- R36: a channel in serialiser mode makes no mark:space cycle (log 29). -/
theorem test_pwm_serialiser :
    (pwmStep { three with
        fifo := [15], pwm := { three.pwm with ch0 := { three.pwm.ch0 with mode := .serialiser } } }).fifo = [15] := by
  decide

/-- R14, R210: HOST hands a command over to an idle sequencer, and not while one is in progress. -/
theorem test_host_hands_over :
    (hostStep { three with hostActs := [.command [0x04]] }).input = [0x04]
      ∧ (hostStep { three with pc := .send .e1, hostActs := [.command [0x04]] }).input = []
      ∧ (hostStep { three with input := [0x05], hostActs := [.command [0x04]] }).input = [0x05]
      ∧ (hostStep { three with hostActs := [.terminate] }).termPending = true := by
  decide

/-- R14, R170: SEQ asks, PLATFORM answers, SEQ goes on; SEQ holds while there is no answer. -/
theorem test_platform_answers :
    let s : State := { fresh with answers := [{ ok := true, value := 9 }], exchange := .asked .openMemDevice }
    (platformStep s).exchange = .answered { ok := true, value := 9 } ∧ (platformStep s).answers = []
      ∧ mapStep .m1 fresh = .goto .m1 { fresh with exchange := .asked .openMemDevice }
      ∧ mapStep .m1 s = .goto .m1 s
      ∧ mapStep .m1 (platformStep s) = .goto (.m2 .gpio) { fresh with
          plat := { Platform.nothing with memDevice := true } } := by
  refine ⟨rfl, rfl, rfl, rfl, rfl⟩

/-- R173: "with `s.mapped = false` it does nothing", whatever is held of PLATFORM. -/
theorem test_mapClose_unmapped : mapClose { three with mapped := false } = { three with mapped := false } := rfl

/-- The registers' words in §0's layout (GK1): CM_PWMCTL of a running clock is SRC 1, ENAB bit 4, BUSY bit 7;
CTL is PWEN, USEF and MSEN of channel 0; DMAC is ENAB bit 31, PANIC 2, DREQ 4; GPFSEL1 has code 2 at pin 18. -/
theorem test_register_words :
    regWord three .cmCtl = some 0x91 ∧ regWord three .pwmCtl = some 0xA1 ∧ regWord three .pwmDmac = some 0x80000204
      ∧ regWord three (.gpfsel 18) = some 0x02000000 ∧ regWord three .pwmSta = some 2 := by
  decide

/-- R73: the two bases of one register. -/
theorem test_register_addresses :
    regAddr ex6 ex6.periphBasePhys .gpset = 0x2020001C ∧ regAddr ex6 ex6.periphBaseBus .pwmFif1 = 0x7E20C018
      ∧ regAddr ex6 ex6.periphBasePhys .dmaConblk = 0x20007504 := by
  decide

/-- Q-1 to Q-5: the DMA request. -/
theorem test_dreq :
    flagDreq three = true ∧ flagDreq { three with fifo := [0, 0, 0] } = true
      ∧ flagDreq { three with fifo := [0, 0, 0, 0] } = false
      ∧ flagDreq { three with pwm := { three.pwm with dmacEnab := false } } = false := by
  decide

/-- W-1 and W-2: WAIT_IDLE holds while ACTIVE is 1 and while EMPT is 0, then passes. -/
theorem test_waitIdle :
    waitStep .w1 { three with dma := { three.dma with phase := .running } }
        = .goto .w1 { three with dma := { three.dma with phase := .running } }
      ∧ waitStep .w2 { three with fifo := [0] } = .goto .w2 { three with fifo := [0] }
      ∧ waitStep .w2 { three with dmaState := .armed } = .done { three with dmaState := .idle } := by
  refine ⟨rfl, rfl, rfl⟩

/-- D-1, D-2 and D-3: TRANSMIT's guards. -/
theorem test_transmit_guards :
    transmitStep .x1 fresh = .raise .notSetUp .noRegion fresh
      ∧ transmitStep .x2 { ready [] with stage := [0, 0, 0] }
        = .raise .capacityError .payloadTooLong { ready [] with stage := [0, 0, 0] }
      ∧ transmitStep .x2 { ready [] with stage := [0, 0] } = .goto (.x3 0) { ready [] with stage := [0, 0] } := by
  refine ⟨rfl, rfl, rfl⟩

/-- R63, R71, R75: a misaligned access, and a region write while the DMA runs, record their model fault; one
that is both is MIXED_WIDTH, and one outside the region stops first (log 28); an earlier fault stays (log 12). -/
theorem test_misuse :
    let running : State := { three with dma := { three.dma with phase := .running } }
    memWrite 2 4 7 three = .ok { three with fault := some .mixedWidth }
      ∧ memWrite 0 4 7 running = .ok { running with fault := some .dmaRace }
      ∧ memWrite 2 4 7 running = .ok { running with fault := some .mixedWidth }
      ∧ memWrite 4094 4 7 running = .error .outsideRegion
      ∧ memWrite 0 2 7 { three with fault := some .unsupportedCb }
        = .ok { three with fault := some .unsupportedCb } := by
  refine ⟨rfl, rfl, rfl, rfl, rfl⟩

/-- R63: an unaligned base, block or register makes an unaligned access, of SEQ and of the DMA alike; a
configuration with one is refused (log 9). -/
theorem test_alignment :
    regInBlock Config.ex1 .dmaDebug = true ∧ fifoInBlock Config.ex1 = true
      ∧ regInBlock { Config.ex1 with periphBasePhys := 0x20000002 } .pwmSta = false
      ∧ fifoInBlock { Config.ex1 with periphBaseBus := 0x7E000001 } = false
      ∧ regInBlock { Config.ex1 with layout := { RegLayout.example1 with cmBlock := 0x101002 } } .cmCtl = false
      ∧ configOk { Config.ex1 with layout := { RegLayout.example1 with pwmFif1 := 4096 } } = false := by
  decide +kernel

/-- R11, R60, R66: no bus address wraps. The last byte of a region that ends at the top of the bus space has one, an
offset past either end has none, and a lock's number too high for the region gives the highest base it fits at
(log 27). -/
theorem test_bus_addresses :
    let top : Region := { strip with bbase := 0xFFFFF000, size := 8192 }
    busAddr strip 32 = some 0xC0100020 ∧ busAddr strip 4096 = none
      ∧ busAddr top 4095 = some 0xFFFFFFFF ∧ busAddr top 4096 = none
      ∧ lockBase ex6 4096 0xFFFFFFFF = 0xFFFFF000 ∧ lockBase ex6 8192 (2 ^ 40) = 0xFFFFE000
      ∧ lockBase ex6 4096 0xC0100000 = 0xC0100000 := by
  decide

/-- R9: CLK_DIV is AUTO or 1..DIV_MAX. -/
theorem test_clkDiv_bounds :
    configOk (exDiv 0) = false ∧ configOk (exDiv 4096) = false ∧ configOk (exDiv 4095) = true := by
  decide +kernel

/-- Log 9: a register of a channel that no PIN_MAP entry gives is not looked at; of one that does, it is. -/
theorem test_unused_channel :
    configOk { Config.ex1 with layout := { RegLayout.example1 with pwmRng1 := 0x1002 } } = true
      ∧ configOk { Config.ex1 with layout := { RegLayout.example1 with pwmRng0 := 0x1002 } } = false := by
  decide +kernel

/-- R9: REG_LAYOUT puts GPFSEL(pin) and FSEL(pin) anywhere, here one pin to a register; a pin without a place is out
of its block. -/
theorem test_fsel_placed :
    let c : Config := { Config.ex1 with layout := { RegLayout.example1 with
      fselPlaces := [{ pin := 18, offset := 0x48, bits := { lo := 29, width := 3 } }] } }
    regOffset c (.gpfsel 18) = 0x48 ∧ regWord { three with cfg := c } (.gpfsel 18) = some 0x40000000
      ∧ configOk c = true ∧ regInBlock c (.gpfsel 19) = false := by
  decide +kernel

/-- Log 33: with the window not mapped an access out of its block stops, and a clock write without the password stops
before that. -/
theorem test_register_order :
    let s : State := { fresh with cfg := { ex6 with layout := { RegLayout.example1 with cmCtl := 4096 } } }
    regWrite .cmCtl id s = .error .registersUnmapped ∧ cmWrite .cmCtl 0 id s = .error .clockPassword
      ∧ cmWrite .cmCtl 0x5A id s = .error .registersUnmapped
      ∧ ((cmWrite .cmCtl 0x5A id { s with mapped := true }).toOption.map State.fault
        = some (some .regOutOfBlock)) := by
  decide +kernel

/-- Log 31: a request number of six bits in PERMAP's five shows its low bits and leaves the other fields alone. -/
theorem test_permap_cut :
    tiValue { Config.ex1 with layout := { RegLayout.example1 with permapPwm := 0x25 } } = 0x04050148 := by decide

/-! ## Witnesses: the hypotheses of each statement, met together -/

theorem test_witness_decodeOfEncode : (Instr.setColorHsb 2147483647 (-2147483648) 0 (-1)).wf = true := by decide

theorem test_witness_encodeOfDecode : decode [0x05, 0xAA] = .command .clearAll [0xAA] := by decide

theorem test_witness_reservedAndShortStrings :
    (1 ≤ (0x08 : Byte).toNat ∧ (0x08 : Byte).toNat ≤ 8)
      ∧ decode (0x08 :: List.replicate 11 0) = .short 0x08
      ∧ decode (0x08 :: List.replicate 12 0) = .command (.hsbToRgb 0 0 0) []
      ∧ decode (0x01 :: List.replicate 7 0) = .short 0x01
      ∧ decode (0x01 :: List.replicate 8 0) = .command (.setup 0 0) [] := by
  decide

/-- Also at the half: 67.5 ticks (T-14). -/
theorem test_witness_ticksRoundToNearest : 1 ≤ 1 ∧ ticks { Config.ex1 with fSrcHz := 54000000 } 1250 1 = 68 := by
  decide

/-- A given valid divider, a given one that is not valid, AUTO with one, AUTO without. -/
theorem test_witness_dividerIsLeastValid :
    ((exDiv 3).clkDiv = some 3 ∧ validDiv (exDiv 3) 3 = true)
      ∧ ((exDiv 7).clkDiv = some 7 ∧ validDiv (exDiv 7) 7 = false)
      ∧ (Config.ex1.clkDiv = none ∧ deriveTiming Config.ex1 ≠ none)
      ∧ deriveTiming { Config.ex1 with fSrcHz := 1000000, divMax := 3 } = none := by
  decide +kernel

/-- ResetGapIsLeast, StoredTimingSound and CyclesConform. -/
theorem test_witness_derivation :
    deriveTiming ex6 = some { div := 1, range := 24, markZero := 8, markOne := 15, resetGapLength := 2 }
      ∧ 1 ≤ ex6.tResetNs ∧ 1 ≤ ex6.fSrcHz := by
  decide +kernel

theorem test_witness_regionIsLeastPages : 1 ≤ Config.ex1.pageSize := by decide

theorem test_witness_packInWireOrder : (0 : Int) ≤ 255 ∧ (255 : Int) ≤ 255 ∧ (0 : Int) ≤ 0 := by decide

/-- WaveformElements, and EncodeAnswersWaveform's last clause. -/
theorem test_witness_buffersFit : BuffersFit three ∧ three.fb[2]? = some 0 :=
  ⟨⟨by decide, rfl, rfl⟩, rfl⟩

theorem test_witness_timingStored : TimingStored three :=
  ⟨{ div := 1, range := 24, markZero := 8, markOne := 15, resetGapLength := 2 }, deriveTiming_ex6, rfl⟩

theorem test_witness_colorModelBounds : (0 : Int) ≤ 359 ∧ (359 : Int) ≤ 359 ∧ (240 : Int) % 60 = 0 := by decide

/-- RegionWordWriteRead, at the region's last word. -/
theorem test_witness_regionWordWriteRead :
    three.region = some strip
      ∧ 4092 % 4 = 0 ∧ strip.has 4092 4 = true ∧ three.dma.phase = .stopped := by
  decide

/-- A state on the point of running SET_COLOR 0, 255, 0, 0 (E-4). -/
def fetching : State := { three with sched := [.seq], input := encode (.setColor 0 255 0 0) ++ [0x04] }

theorem test_witness_stepRunsDecodedCommand :
    configOk fetching.cfg = true ∧ fetching.pc = .idle ∧ fetching.sched = .seq :: []
      ∧ terminationDue fetching = false
      ∧ decode fetching.input = .command (.setColor 0 255 0 0) [0x04] := by
  decide +kernel

/-- A SEND in the middle of X3, with each agent in turn next. -/
def copying : State :=
  { ready [] with
    pc := .send (.e3 (.x3 1)), stage := [0, 0], mem := putWord strip 32 0 [], sched := [.seq, .dma] }

theorem test_witness_stepMovesScheduledAgent :
    configOk copying.cfg = true ∧ copying.pc ≠ .idle ∧ copying.sched = .seq :: [.dma] := by
  decide +kernel

theorem test_witness_commandRunsStepByStep :
    configOk sending0.cfg = true ∧ Pc.send .e1 ≠ .idle ∧ ∃ t, performFrom (.send .e1) sending0 = .next t :=
  ⟨by decide +kernel, by decide, next_of_after (by decide +kernel)⟩

theorem test_witness_reservedOpcode :
    configOk fresh.cfg = true ∧ fresh.pc = .idle ∧ terminationDue fresh = false
      ∧ (9 ≤ (0x09 : Byte).toNat ∧ (0x00 : Byte).toNat = 0) := by
  decide +kernel

/-- TerminationServedFirst, in Ready and in Unconfigured. -/
theorem test_witness_terminationServed :
    let s : State := { three with termPending := true, sched := [.seq] }
    let u : State := { fresh with termPending := true, sched := [.seq] }
    (configOk s.cfg = true ∧ s.pc = .idle ∧ s.sched = .seq :: [] ∧ s.termPending = true ∧ s.life = .ready)
      ∧ configOk u.cfg = true ∧ u.pc = .idle ∧ u.sched = .seq :: [] ∧ u.termPending = true
      ∧ u.life = .unconfigured := by
  decide +kernel

/-- A state from `ready` has its peripherals configured, wherever the sequencer stands. -/
theorem hardwareReady_ready (fb : List Color) (pc : Pc) (stage : List Byte) (mem : List Host.Cell)
    (sched : List Agent) (fifo : List Word) :
    HardwareReady { ready fb with pc := pc, stage := stage, mem := mem, sched := sched, fifo := fifo } := by
  have entry : lookupPin ex6 18 = some ⟨18, .zero, 2⟩ := by decide
  refine ⟨⟨18, .zero, 2⟩, entry, rfl, ⟨_, deriveTiming_ex6, rfl⟩, ?_⟩
  refine ⟨fun _ => rfl, fun _ => ⟨rfl, rfl, rfl, rfl, rfl, rfl⟩, ?_, ?_, fun _ => ⟨rfl, rfl⟩,
    fun _ => ⟨rfl, rfl, rfl, rfl, rfl⟩, fun _ => rfl, fun _ => ⟨rfl, rfl, rfl⟩, fun _ => rfl⟩ <;> omega

/-- SendCompletes, ClearAllCompletes and CleanupCompletes: each schedule can stand in a state ready to send. -/
theorem test_witness_schedules (ags : List Agent) : ReadyToSend { three with sched := ags } := by
  have size : 4096 = regionSize ex6 74 := by decide
  have fits : BaseFits ex6 74 0xC0100000 := ⟨by decide, by decide⟩
  have leds : 3 ≤ 1024 := by decide
  exact ⟨configOk_ex6, rfl, ⟨rfl, rfl, ⟨_, rfl, size, fits⟩, ⟨leds, rfl, rfl⟩, rfl⟩,
    hardwareReady_ready [0, 0, 0] .idle [] [] ags [], rfl, rfl⟩

/-- TerminationCleansUp, SendEmitsFrameUnderAnySchedule and SendNeverStops. -/
theorem test_witness_readyToSend : ReadyToSend three := test_witness_schedules []

/-- SendEmitsFrameUnderAnySchedule and TransferEndsIdle: a SEND that ends. -/
theorem test_witness_send_ends :
    seen (fun t => (t.pc, t.resp.status)) (exec .send sending0) = some (.idle, .ok) := by
  decide +kernel

/-- HaltedIsTerminal: a Halted block's step with a command there. -/
theorem test_witness_halted :
    halted.life = .halted ∧ halted.pc = .idle ∧ halted.dma.phase = .stopped
      ∧ ∃ t, step { halted with input := [0x04], sched := [.seq] } = .next t :=
  ⟨rfl, rfl, rfl, next_of_after (by decide +kernel)⟩

/-- LifecycleGate: an idle state of each lifecycle. -/
theorem test_witness_lifecycleGate :
    (fresh.pc = .idle ∧ fresh.life = .unconfigured) ∧ (three.pc = .idle ∧ three.life = .ready)
      ∧ halted.pc = .idle ∧ halted.life = .halted := by
  decide

/-- SetColorWritesEntry, SetColorHsbDelegates, EncodeAnswersWaveform, HsbToRgbAnswersColor: the index at both
ends of its range and just outside it. -/
theorem test_witness_colorCommands :
    three.pc = .idle ∧ three.life = .ready ∧ fresh.life ≠ .halted
      ∧ indexOf three.ledCount 0 = some 0 ∧ indexOf three.ledCount 2 = some 2
      ∧ indexOf three.ledCount 3 = none ∧ indexOf three.ledCount (-1) = none := by
  decide

/-- OneStepCommandsFrame: each command gives a next state. -/
theorem test_witness_one_step_frames :
    (∃ t, exec (.setColor 0 1 2 3) three = .next t) ∧ (∃ t, exec (.setColorHsb 9 1 2 3) three = .next t)
      ∧ (∃ t, exec .encode three = .next t) ∧ ∃ t, exec (.hsbToRgb 1 2 3) fresh = .next t :=
  ⟨⟨_, rfl⟩, ⟨_, rfl⟩, ⟨_, rfl⟩, ⟨_, rfl⟩⟩

theorem test_witness_setColorThenEncode :
    three.pc = .idle ∧ three.life = .ready ∧ BuffersFit three ∧ 2 < three.ledCount ∧ 1 < three.ledCount :=
  ⟨rfl, rfl, ⟨by decide, rfl, rfl⟩, by decide, by decide⟩

/-- SetupCompletes. -/
theorem test_witness_setupCompletes :
    configOk granted.cfg = true ∧ granted.pc = .idle ∧ granted.life = .unconfigured ∧ granted.region = none
      ∧ ledCountOk granted.cfg 1024 = true ∧ lookupPin granted.cfg 18 = some ⟨18, .zero, 2⟩
      ∧ deriveTiming granted.cfg
        = some { div := 1, range := 24, markZero := 8, markOne := 15, resetGapLength := 2 }
      ∧ granted.cfg.settleUs < 2 ^ 32 ∧ granted.exchange = .quiet ∧ granted.answers = grantAll 7 0xC0100000 0x10000 ++ []
      ∧ granted.sched = setupSchedule granted.cfg ++ [] := by
  decide +kernel

/-- SetupBadArguments: G-4 and G-5's counts, G-6's pin, and EX4 (G-8). -/
theorem test_witness_setupBadArguments :
    (fresh.pc = .idle ∧ fresh.life = .unconfigured)
      ∧ (ledCountOk ex6 1025 = false ∧ ledCountOk ex6 (-1) = false)
      ∧ (ledCountOk ex6 1024 = true ∧ ledCountOk ex6 0 = true ∧ lookupPin ex6 7 = none)
      ∧ ledCountOk (exDiv 10) 2 = true ∧ lookupPin (exDiv 10) 18 ≠ none ∧ deriveTiming (exDiv 10) = none := by
  decide +kernel

/-- SetupAllOrNothing and SetupFrame: a SETUP that ends with OK, and one that ends with an error. -/
theorem test_witness_setupEnds :
    (HoldsNothing granted ∧ platShape granted.plat = emptyShape)
      ∧ seen (fun t => (t.pc, t.resp.status)) (exec (.setup 18 0) granted) = some (.idle, .ok)
      ∧ seen (fun t => (t.pc, t.resp.status)) (exec (.setup 18 2) { fresh with
          answers := [{ ok := false, value := 0 }], sched := refusedSchedule ex6 0 }) = some (.idle, .hardwareMapError) :=
  ⟨⟨⟨rfl, rfl, rfl, rfl, rfl⟩, rfl⟩, by decide +kernel, by decide +kernel⟩

/-- Power-on in EX6 as a SETUP whose request number `k` PLATFORM refuses finds it. -/
def refusing (k : Nat) : State :=
  { fresh with
    answers := List.replicate k { ok := true, value := 7 } ++ [{ ok := false, value := 0 }]
    sched := refusedSchedule ex6 k }

/-- The same where all is granted so far and the clock, busy from before, never stops. -/
def stuckClock : State :=
  { fresh with
    cm := { src := 0, enab := true, busy := true, divi := 0, divf := 0 }
    answers := List.replicate 6 { ok := true, value := 7 }
    sched := busySchedule ex6 }

/-- SetupReportsFailures: every request, the first and the last of each procedure run to the answer of R171 and
R172, and K4's timeout. -/
theorem test_witness_setupReportsFailures :
    (∀ k < 10, requestErrors[k]?.isSome = true)
      ∧ (∀ k, (refusing k).cfg = ex6 ∧ (refusing k).pc = .idle ∧ (refusing k).life = .unconfigured
        ∧ HoldsNothing (refusing k) ∧ platShape (refusing k).plat = emptyShape ∧ (refusing k).exchange = .quiet)
      ∧ (ledCountOk ex6 2 = true ∧ lookupPin ex6 18 = some ⟨18, .zero, 2⟩ ∧ ex6.settleUs < 2 ^ 32)
      ∧ (HoldsNothing stuckClock ∧ platShape stuckClock.plat = emptyShape)
      ∧ (stuckClock.cm.busy = true ∧ stuckClock.cfg.busyTimeoutUs < 2 ^ 32 ∧ stuckClock.exchange = .quiet)
      ∧ seen (fun t => (t.pc, answer t)) (exec (.setup 18 2) (refusing 0)) = some (.idle, [0x01, 0x10])
      ∧ seen (fun t => (t.pc, answer t)) (exec (.setup 18 2) (refusing 5)) = some (.idle, [0x01, 0x15])
      ∧ seen (fun t => (t.pc, answer t)) (exec (.setup 18 2) (refusing 6)) = some (.idle, [0x02, 0x21])
      ∧ seen (fun t => (t.pc, answer t)) (exec (.setup 18 2) (refusing 9)) = some (.idle, [0x02, 0x24])
      ∧ seen (fun t => (t.pc, answer t)) (exec (.setup 18 2) stuckClock) = some (.idle, [0x03, 0x04]) :=
  ⟨by decide, fun _ => ⟨rfl, rfl, rfl, ⟨rfl, rfl, rfl, rfl, rfl⟩, rfl, rfl⟩, by decide,
    ⟨⟨rfl, rfl, rfl, rfl, rfl⟩, rfl⟩, by decide, by decide +kernel, by decide +kernel, by decide +kernel,
    by decide +kernel, by decide +kernel⟩

/-- TransferFrame and CleanupFrame: each command gives a next state. -/
theorem test_witness_transferFrames :
    (∃ t, exec .send sending0 = .next t) ∧ (∃ t, exec .clearAll sending0 = .next t)
      ∧ ∃ t, exec .cleanup { ready [] with sched := cleanupSchedule 2 } = .next t :=
  ⟨next_of_after (by decide +kernel), next_of_after (by decide +kernel), next_of_after (by decide +kernel)⟩

/-- TransmitGuards: the stage at the capacity and one above it, with and without a region. -/
theorem test_witness_transmitGuards :
    fresh.region = none ∧ three.region ≠ none
      ∧ ({ ready [] with stage := [0, 0] } : State).stage.length ≤ (ready []).capacity
      ∧ (ready []).capacity < ({ ready [] with stage := [0, 0, 0] } : State).stage.length := by
  decide

/-- PwmCycleStep: enabled, where the FIFO may hold a word at, below or above the range, or none; and not. -/
theorem test_witness_pwmCycleStep :
    ((three.pwm.channel three.ch).pwen = true ∧ (three.pwm.channel three.ch).usef = true
        ∧ (three.pwm.channel three.ch).msen = true ∧ (three.pwm.channel three.ch).mode = .pwm
        ∧ three.clk.running = true)
      ∧ (fresh.pwm.channel fresh.ch).pwen = false := by
  decide

/-- A running transfer of two words whose second is to be moved next (§9's T-1, step 10). -/
def moving : State :=
  { copying with
    pc := .send (.e4 .w1)
    mem := putWord strip 36 5 []
    dma := { three.dma with
      conblkAd := 0xC0100000, phase := .running, next := 1
      cb := { ControlBlock.zero with ti := 0x04050148, source := 0xC0100020, dest := 0x7E20C018, length := 8 } }
    fifo := [0] }

/-- `moving` in a layout whose FIF1 lies outside its page. -/
def noFifo : State :=
  { moving with cfg := { ex6 with layout := { RegLayout.example1 with pwmFif1 := 4096 } } }

/-- The top page of the bus space as a region, with an offset that has no bus address. -/
def topPage : Region := { strip with bbase := 0xFFFFF000, size := 8192 }

/-- MisuseIsRecordedNotPerformed: a half-word, an odd address, the region's last word and one past it, past its end or
the address space's; a running channel. -/
theorem test_witness_misuse :
    (three.region = some strip ∧ 2 ≠ 4 ∧ 6 % 4 ≠ 0 ∧ 4092 % 4 = 0)
      ∧ (strip.has 6 4 = true ∧ strip.has 4092 4 = true ∧ strip.has 4093 4 = false)
      ∧ (topPage.has 4092 4 = true ∧ topPage.has 4093 4 = false)
      ∧ (moving.region = some strip ∧ moving.dma.phase = .running)
      ∧ ({ moving with fault := some .unsupportedCb } : State).fault.getD .mixedWidth = .unsupportedCb := by
  decide

/-- MisuseIsRecordedNotPerformed, the register accesses: with the window and without; a register outside its block's
page, one off a word's boundary, and one past the address space. -/
theorem test_witness_misuse_registers :
    (three.mapped = true ∧ fresh.mapped = false)
      ∧ regInBlock { Config.ex1 with layout := { RegLayout.example1 with pwmSta := 4096 } } .pwmSta = false
      ∧ regInBlock { Config.ex1 with layout := { RegLayout.example1 with pwmSta := 2 } } .pwmSta = false
      ∧ regInBlock { Config.ex1 with periphBasePhys := 0xFFE00000 } .pwmSta = false := by
  decide

/-- MisuseIsRecordedNotPerformed, the DMA's reads: a FIF1 out of its block, a source that is not aligned, one past the
region, and a control block that is not aligned. -/
theorem test_witness_misuse_dma :
    (noFifo.dma.next < transferLength noFifo ∧ flagDreq noFifo = true ∧ fifoInBlock noFifo.cfg = false
        ∧ noFifo.dma.cb.source.toNat + 4 * noFifo.dma.next = strip.bbase.toNat + 36
        ∧ (getWord strip 36 noFifo.mem).isSome = true)
      ∧ (moving.dma.next < transferLength moving ∧ flagDreq moving = true)
      ∧ ((0xC0100022 : Word).toNat + 4 * moving.dma.next = strip.bbase.toNat + 38 ∧ strip.has 38 4 = true)
      ∧ ((0xC0100FFC : Word).toNat + 4 * moving.dma.next = strip.bbase.toNat + 4096 ∧ strip.has 4096 4 = false)
      ∧ three.dma.phase = .stopped
      ∧ ((0xC0100FFA : Word).toNat = strip.bbase.toNat + 4090 ∧ strip.has 4090 4 = true) := by
  decide

/-- DmaMovesWords: a word left with DREQ asserted, with the FIFO at the threshold, and none left. -/
theorem test_witness_dmaMovesWords :
    moving.dma.phase = .running ∧ moving.dma.next < moving.dma.cb.length.toNat / 4
      ∧ moving.pwm.dmacEnab = true ∧ moving.fifo.length < moving.pwm.dmacDreq ∧ fifoInBlock moving.cfg = true
      ∧ moving.region = some strip
      ∧ getWord strip 36 moving.mem = some 5
      ∧ strip.has 36 4 = true ∧ moving.dma.cb.source.toNat + 4 * moving.dma.next = strip.bbase.toNat + 36
      ∧ moving.pwm.dmacDreq ≤ ({ moving with fifo := [0, 0, 0, 0] } : State).fifo.length
      ∧ ({ moving with dma := { moving.dma with next := 2 } } : State).dma.next = moving.dma.cb.length.toNat / 4 := by
  decide

/-- The control block of a transfer of this many bytes, as X4 writes it, in an otherwise unwritten region. -/
def blockMem (bytes : Word) : List Host.Cell :=
  putBytes strip 0 ([(0x04050148 : Word), 0xC0100020, 0x7E20C018, bytes, 0, 0, 0, 0].flatMap wordBytes) []

/-- A stopped channel with that control block at CONBLK_AD. -/
def starting (bytes : Word) : State :=
  { ready [] with mem := blockMem bytes, dma := { three.dma with conblkAd := 0xC0100000 } }

/-- What the channel loads. -/
def loaded (bytes : Word) : ControlBlock :=
  { ControlBlock.zero with ti := 0x04050148, source := 0xC0100020, dest := 0x7E20C018, length := bytes }

/-- The control block read at CONBLK_AD. -/
def loadedAt (s : State) : Option ControlBlock :=
  match loadBlock s.dma.conblkAd (writePriority 8 s) with
  | .ok (.block cb) => some cb
  | _ => none

theorem loadBlock_of_loadedAt {s : State} {cb : ControlBlock} (h : loadedAt s = some cb) :
    loadBlock s.dma.conblkAd (writePriority 8 s) = .ok (.block cb) := by
  unfold loadedAt at h
  split at h <;> simp_all

/-- DmaStartLoadsBlock: TRANSMIT's block of 8 bytes, and D-4's of none, which is not supported (R185). -/
theorem test_witness_dmaStart :
    (starting 8).mapped = true ∧ regInBlock (starting 8).cfg .dmaCs = true ∧ (starting 8).dma.phase = .stopped
      ∧ loadBlock (starting 8).dma.conblkAd (writePriority 8 (starting 8)) = .ok (.block (loaded 8))
      ∧ loadBlock (starting 0).dma.conblkAd (writePriority 8 (starting 0)) = .ok (.block (loaded 0))
      ∧ supportedCb ex6 (loaded 8) = true ∧ supportedCb ex6 (loaded 0) = false ∧ supportedCb ex6 (loaded 6) = false :=
  ⟨rfl, by decide, rfl, loadBlock_of_loadedAt (by decide +kernel), loadBlock_of_loadedAt (by decide +kernel),
    by decide, by decide, by decide⟩

/-- AgentsOwnTheirState: each agent's step gives a next state; HOST raises the flag or hands bytes over,
PLATFORM has a request to answer, the clock has a stop to finish. -/
theorem test_witness_agents :
    (∃ t, agentStep .seq copying = .next t) ∧ (∃ t, agentStep .dma moving = .next t)
      ∧ (∃ t, agentStep .pwm moving = .next t) ∧ (∃ t, agentStep .clk fresh = .next t)
      ∧ (∃ t, agentStep .timer moving = .next t)
      ∧ (∃ t, agentStep .host { moving with hostActs := [.terminate] } = .next t)
      ∧ (∃ t, agentStep .host { three with hostActs := [.command [0x04]] } = .next t)
      ∧ ∃ t, agentStep .platform { fresh with exchange := .asked .openMemDevice } = .next t :=
  ⟨next_of_after (by decide +kernel), next_of_after (by decide +kernel), ⟨_, rfl⟩, ⟨_, rfl⟩, ⟨_, rfl⟩, ⟨_, rfl⟩,
    ⟨_, rfl⟩, ⟨_, rfl⟩⟩

/-- The invariants and NothingIsTakenBack: a state in the middle of a SEND that meets them all and steps. -/
theorem test_witness_invariants :
    Memory.wf copying.mem = true ∧ ResourcesMatch copying ∧ HardwareMatches copying ∧ SingleWriter copying
      ∧ FifoBounded copying ∧ TransferSound copying ∧ ∃ t, step copying = .next t := by
  refine ⟨by decide, ⟨?_, fun _ => rfl⟩, fun _ => hardwareReady_ready [] _ _ _ _ _, ⟨by decide, fun _ => rfl⟩,
    ⟨by decide, fun _ => by decide⟩, ?_, next_of_after (by decide +kernel)⟩
  · exact ⟨rfl, rfl, ⟨_, rfl, by decide, ⟨by decide, by decide⟩⟩, ⟨by decide, rfl, rfl⟩, rfl⟩
  · intro h; cases h

/-- SoundStatesNeverStop: the same state is sound, with one word of the waveform written; so is power-on with bytes
that are no command. -/
theorem test_witness_sound :
    Sound copying ∧ Sound { State.reset with input := [0x01, 0x12], sched := [.seq] }
      ∧ decode [0x01, 0x12] = .short 0x01 := by
  refine ⟨⟨⟨configOk_ex6, test_witness_invariants.2.1.1, test_witness_invariants.2.2.1, ?_, ?_, ?_⟩, fun _ => rfl, rfl⟩,
    ⟨⟨by decide +kernel, ⟨⟨rfl, rfl, rfl, rfl, rfl⟩, rfl⟩, (fun h => by cases h), ?_, ?_, ?_⟩, fun _ => rfl, rfl⟩,
    by decide⟩
  · intro e he _; decide
  · rintro x r he hr
    cases he
    cases hr
    refine ⟨by decide, fun i e hi hs => ?_⟩
    obtain rfl : i = 0 := by omega
    cases hs
    decide
  · intro h; cases h
  · intro e he; cases he
  · intro x r he; cases he
  · intro h; cases h

/-- FifoAndTransferStayBounded and MemoryStaysCanonical with a transfer running and memory written. -/
theorem test_witness_running :
    Memory.wf moving.mem = true ∧ moving.dma.phase = .running ∧ supportedCb moving.cfg moving.dma.cb = true
      ∧ moving.dma.next ≤ transferLength moving ∧ moving.fifo.length ≤ moving.cfg.fifoDepth
      ∧ (after (step { moving with sched := [.dma] })).isSome = true := by
  decide +kernel

/-! ## Fair runs (R323) -/

/-- SEQ, DMA, PWM, TIMER and PLATFORM in turn; CLK never. -/
def turn (n : Nat) : Agent :=
  match n % 5 with
  | 0 => .seq
  | 1 => .dma
  | 2 => .pwm
  | 3 => .timer
  | _ => .platform

/-- The run of these turns from a state. -/
def turns (s : State) : Nat → State
  | 0 => s
  | n + 1 => (after (agentStep (turn n) (turns s n))).getD (turns s n)

/-- What the agents' turns make of a state, from turn `n` on; `none` if the machine stops. -/
def walk : Nat → Nat → State → Option State
  | _, 0, s => some s
  | n, k + 1, s =>
    match after (agentStep (turn n) s) with
    | none => none
    | some t => walk (n + 1) k t

theorem turns_of_walk (s : State) (k : Nat) : ∀ n u, walk n k (turns s n) = some u →
    turns s (n + k) = u ∧ ∀ m, n ≤ m → m < n + k → (after (agentStep (turn m) (turns s m))).isSome = true := by
  induction k with
  | zero => intro n u h; cases h; exact ⟨rfl, fun m _ _ => by omega⟩
  | succ k ih =>
    intro n u h
    unfold walk at h
    split at h
    · cases h
    · rename_i t ht
      have next : turns s (n + 1) = t := by simp [turns, ht]
      obtain ⟨hu, hm⟩ := ih (n + 1) u (by rw [next]; exact h)
      refine ⟨by rw [← hu]; congr 1; omega, fun m h1 h2 => ?_⟩
      by_cases hmn : m = n
      · rw [hmn, ht]; rfl
      · exact hm m (by omega) (by omega)

/-- With the sequencer idle and the channel stopped every turn leaves them so. -/
theorem turn_idle (n : Nat) (s : State) (hp : s.pc = .idle) (hd : s.dma.phase = .stopped) :
    ∃ t, agentStep (turn n) s = .next t ∧ t.pc = .idle ∧ t.dma.phase = .stopped := by
  unfold turn
  split
  · exact ⟨s, by simp [agentStep, microStep, hp], hp, hd⟩
  · exact ⟨s, by simp [agentStep, dmaStep, hd], hp, hd⟩
  · refine ⟨_, rfl, ?_⟩
    obtain ⟨-, h⟩ | ⟨-, r, m, -, -, h⟩ := pwmStep_cases s <;> rw [h] <;> exact ⟨hp, hd⟩
  · exact ⟨_, rfl, hp, hd⟩
  · refine ⟨_, rfl, ?_⟩
    obtain ⟨-, h⟩ | ⟨_, _, _, _, -, h⟩ := platformStep_cases s <;> rw [h] <;> exact ⟨hp, hd⟩

/-- How the turns stand after this many: the micro-step, the response and the channel. -/
def stands (s : State) (n : Nat) : Option (Pc × List Byte × Phase) :=
  (walk 0 n s).map (fun t => (t.pc, answer t, t.dma.phase))

theorem turn_fair (s : State) (a : Agent) (i : Nat) (hi : i < 5) (ha : turn i = a) : WeaklyFair a (turns s) turn := by
  intro n _
  refine ⟨5 * n + i, by omega, ?_⟩
  rw [← ha]
  unfold turn
  rw [Nat.mul_add_mod]

/-- Turns that once stand idle, with the channel stopped, are a fair run. -/
theorem fairRun_turns (s : State) (n : Nat) (bytes : List Byte) (h : stands s n = some (.idle, bytes, .stopped)) :
    FairRun (turns s) turn := by
  obtain ⟨u, hw, hu, hd⟩ : ∃ u, walk 0 n s = some u ∧ u.pc = .idle ∧ u.dma.phase = .stopped := by
    unfold stands at h
    cases hw : walk 0 n s with
    | none => rw [hw] at h; cases h
    | some t =>
      rw [hw] at h
      simp only [Option.map_some, Option.some.injEq, Prod.mk.injEq] at h
      exact ⟨t, rfl, h.1, h.2.2⟩
  obtain ⟨hn, hbefore⟩ := turns_of_walk s n 0 u hw
  have later : ∀ k, (turns s (n + k)).pc = .idle ∧ (turns s (n + k)).dma.phase = .stopped := by
    intro k
    induction k with
    | zero => rw [Nat.zero_add] at hn; rw [Nat.add_zero, hn]; exact ⟨hu, hd⟩
    | succ k ih =>
      obtain ⟨t, ht, h1, h2⟩ := turn_idle (n + k) _ ih.1 ih.2
      have : turns s (n + (k + 1)) = t := by
        show turns s (n + k + 1) = t
        simp [turns, ht, after]
      rw [this]; exact ⟨h1, h2⟩
  refine ⟨fun m => ?_, turn_fair s .dma 1 (by omega) rfl, turn_fair s .pwm 2 (by omega) rfl,
    turn_fair s .timer 3 (by omega) rfl, turn_fair s .seq 0 (by omega) rfl⟩
  obtain ⟨t, ht⟩ : ∃ t, agentStep (turn m) (turns s m) = .next t := by
    by_cases hm : m < n
    · exact next_of_after (hbefore m (by omega) (by omega))
    · obtain ⟨k, rfl⟩ : ∃ k, m = n + k := ⟨m - n, by omega⟩
      obtain ⟨t, ht, -⟩ := turn_idle (n + k) _ (later k).1 (later k).2
      exact ⟨t, ht⟩
  rw [ht]
  simp [turns, ht, after]

theorem turn_never_clk (n : Nat) : turn n ≠ .clk := by
  unfold turn
  split <;> decide

theorem turn_mod (n k : Nat) : turn (n + k) = turn (n % 5 + k) := by
  unfold turn
  rw [show (n + k) % 5 = (n % 5 + k) % 5 by omega]

/-- Between two turns of SEQ there is one of TIMER. -/
theorem promptSeq_turns (s : State) : PromptSeq 1 (turns s) turn := by
  intro n m _ _ hseq
  have hd : m - n < 5 := by
    by_cases h0 : 5 ≤ m - n
    · refine absurd ?_ (hseq (n + (5 - n % 5) % 5) (by omega) (by omega))
      unfold turn
      rw [show (n + (5 - n % 5) % 5) % 5 = 0 by omega]
      rfl
    · omega
  have short : ∀ r < 5, ∀ d < 5,
      ((List.range d).filter (fun k => decide (turn (r + k) = .timer))).length ≤ 1 := by decide
  unfold timerSteps
  simp only [turn_mod n]
  exact short (n % 5) (Nat.mod_lt _ (by omega)) (m - n) hd

/-- Quick bounds for K4 and K7. -/
def quick : Config := { ex6 with busyTimeoutUs := 2, settleUs := 2 }

theorem configOk_quick : configOk quick = true := by decide +kernel

theorem deriveTiming_quick : deriveTiming quick
    = some { div := 1, range := 24, markZero := 8, markOne := 15, resetGapLength := 2 } := by decide +kernel

/-- A SETUP in the middle of CONFIGURE, PLATFORM granting what is still to be asked; `busy` and `enab` are the
clock's. -/
def configuring (k : ConfigureStep) (enab : Bool) : State :=
  { ready [] with
    cfg := quick
    life := .unconfigured
    pc := .setup 18 0 (.s5 ⟨18, .zero, 2⟩ k)
    region := none
    capacity := 0
    cm := { src := 1, enab := enab, busy := true, divi := 1, divf := 0 }
    pwm := { (ready []).pwm with ch0 := { (ready []).pwm.ch0 with pwen := false } }
    plat := { Platform.nothing with memDevice := true, blocks := allBlocks }
    answers := List.replicate 4 { ok := true, value := 7 } }

theorem inOrder_configuring (k : ConfigureStep) (enab : Bool)
    (hk : configureIndex k = 7 ∧ enab = true ∨ configureIndex k = 4 ∧ enab = false) :
    InOrder (configuring k enab) := by
  have entry : lookupPin quick 18 = some ⟨18, .zero, 2⟩ := by decide
  have leds : ledCountOk quick 0 = true := by decide
  refine ⟨configOk_quick, ⟨⟨rfl, rfl, rfl, rfl, rfl, rfl, rfl⟩, leds⟩,
    ⟨rfl, entry, ⟨_, deriveTiming_quick, rfl⟩, ?_⟩, ?_, ?_, ?_⟩
  · obtain ⟨hk, rfl⟩ | ⟨hk, rfl⟩ := hk <;> rw [hk]
    · refine ⟨fun _ => rfl, fun _ => ⟨rfl, rfl, rfl, rfl, rfl, rfl⟩, fun _ _ => rfl, ?_, fun _ => ⟨rfl, rfl⟩,
        fun _ => ⟨rfl, rfl, rfl, rfl, rfl⟩, ?_, ?_, ?_⟩ <;> omega
    · refine ⟨fun _ => rfl, fun _ => ⟨rfl, rfl, rfl, rfl, rfl, rfl⟩, fun _ _ => rfl, fun _ _ => rfl, ?_, ?_, ?_, ?_, ?_⟩
        <;> omega
  · intro e he; cases he
  · intro x r he; cases he
  · intro h; cases h

/-- A SEND at its start, with a stale word in the FIFO. -/
def stale : State := { ready [] with pc := .send .e1, fifo := [5] }

theorem inOrder_stale : InOrder stale := by
  refine ⟨configOk_ex6, ⟨rfl, rfl, ⟨_, rfl, by decide, ⟨by decide, by decide⟩⟩, ⟨by decide, rfl, rfl⟩, rfl⟩,
    fun _ => hardwareReady_ready [] _ _ _ _ _, ?_, ?_, ?_⟩
  · intro e he h; cases he; exact absurd rfl h
  · intro x r he; cases he
  · intro h; cases h

theorem stands_stale : stands stale 150 = some (.idle, [0x00, 0x00], .stopped) := by decide +kernel

/-- From K7's wait on, SETUP goes to its end: `00 00`. -/
theorem stands_settling : stands (configuring (.k7Wait 0) true) 150 = some (.idle, [0x00, 0x00], .stopped) := by
  decide +kernel

/-- The clock never stops: `03 04`. -/
theorem stands_polling : stands (configuring (.k4Busy 0) false) 40 = some (.idle, [0x03, 0x04], .stopped) := by
  decide +kernel

/-- CommandsEndInFairRuns and WaitsEndInFairRuns: a SEND, a SETUP in K7's wait, and one in K4's poll whose clock never
stops, each with a fair run. -/
theorem test_witness_fairRuns :
    (InOrder stale ∧ FairRun (turns stale) turn)
      ∧ (let s := configuring (.k7Wait 0) true
        InOrder s ∧ FairRun (turns s) turn ∧ SetupFair s.cfg (turns s) turn ∧ s.cfg.settleUs + 1 ≤ 2 ^ 32)
      ∧ let s := configuring (.k4Busy 0) false
        InOrder s ∧ FairRun (turns s) turn ∧ SetupFair s.cfg (turns s) turn ∧ s.cfg.busyTimeoutUs + 2 * 1 ≤ 2 ^ 32
          ∧ s.cm.busy = true ∧ ∀ n, turn n ≠ .clk := by
  have setup : ∀ s : State, s.cfg = quick → SetupFair s.cfg (turns s) turn := fun s hs =>
    ⟨turn_fair s .platform 4 (by omega) rfl, 1, promptSeq_turns s, by rw [hs]; decide, by rw [hs]; decide⟩
  exact ⟨⟨inOrder_stale, fairRun_turns _ 150 _ stands_stale⟩,
    ⟨inOrder_configuring _ _ (.inl ⟨rfl, rfl⟩), fairRun_turns _ 150 _ stands_settling, setup _ rfl, by decide⟩,
    inOrder_configuring _ _ (.inr ⟨rfl, rfl⟩), fairRun_turns _ 40 _ stands_polling, setup _ rfl, by decide, rfl,
    turn_never_clk⟩

end Sys2Proof.Tests
end

/-! Settles the scope's statements (00_scope.md). SUPPORT first: what dispatch and a step of the agent at the head of the
schedule are; what no step takes back; and that no agent looks at the schedule. -/

namespace Sys2Proof.Machine

/-! ## The agent at the head of the schedule -/

/-- A command handed over while another is in progress is refused (log 26). -/
theorem dispatch_busy {gate : Life → Gate} {perform : State → Host.Outcome State Fault Refusal} {s : State}
    (hp : s.pc ≠ .idle) : dispatch gate perform s = .refused .commandInProgress :=
  if_neg hp

/-- Every command goes through dispatch (R210). -/
theorem exec_dispatch (i : Instr) (s : State) : ∃ gate perform, exec i s = dispatch gate perform s := by
  cases i <;> unfold exec <;> exact ⟨_, _, rfl⟩

/-- With a command in progress, a step is one step of the agent at the head of the schedule (R14, log 2). -/
theorem step_agent {s : State} {a : Agent} {as : List Agent} (hc : configOk s.cfg = true) (hp : s.pc ≠ .idle)
    (hs : s.sched = a :: as) : step s = agentStep a { s with sched := as } := by
  have hseq : seqStep { s with sched := as } = microStep { s with sched := as } := if_neg hp
  cases a <;> simp only [step, hc, if_true, nextAgent, hs, hseq, agentStep]

/-- Settles O20: dispatch is the only way into a command, and a step draws the schedule's head. -/
theorem stepMovesScheduledAgent : Obligations.StepMovesScheduledAgent := by
  refine ⟨fun s a as hc hp hs => step_agent hc hp hs, fun s i hp => ?_⟩
  obtain ⟨gate, perform, h⟩ := exec_dispatch i s
  exact h.trans (dispatch_busy hp)

/-! ## What no step takes back -/

/-- What NothingIsTakenBack speaks of: the parameters, the model fault, the termination flag and the output trace. -/
def State.kept (s : State) : Config × Option ModelFault × Bool × List Cycle :=
  (s.cfg, s.fault, s.termPending, s.out)

@[simp] theorem State.setPlat_kept (p : Platform) (s : State) : (s.setPlat p).kept = s.kept := rfl
@[simp] theorem platUnlock_kept (s : State) : (platUnlock s).kept = s.kept := rfl
@[simp] theorem platFree_kept (s : State) : (platFree s).kept = s.kept := rfl
@[simp] theorem platClose_kept (s : State) : (platClose s).kept = s.kept := rfl

/-- `t` takes nothing of `s` back, and each cycle it adds has its mark within its range (R9, R29, R30, R44, R142). -/
structure Extends (s t : State) : Prop where
  cfg : t.cfg = s.cfg
  fault : ∀ f, s.fault = some f → t.fault = some f
  term : s.termPending = true → t.termPending = true
  out : ∃ tail, t.out = s.out ++ tail ∧ ∀ c ∈ tail, c.mark.toNat ≤ c.range.toNat

theorem Extends.of_kept {s t : State} (h : t.kept = s.kept) : Extends s t := by
  simp only [State.kept, Prod.mk.injEq] at h
  obtain ⟨hc, hf, hp, ho⟩ := h
  exact ⟨hc, fun f h => hf.trans h, fun h => hp.trans h, [], by simp [ho], by simp⟩

theorem Extends.refl (s : State) : Extends s s := .of_kept rfl

theorem Extends.trans {s t u : State} (h : Extends s t) (h' : Extends t u) : Extends s u := by
  obtain ⟨l, hl, hm⟩ := h.out
  obtain ⟨l', hl', hm'⟩ := h'.out
  refine ⟨h'.cfg.trans h.cfg, fun f hf => h'.fault f (h.fault f hf), fun hp => h'.term (h.term hp), l ++ l', ?_, ?_⟩
  · rw [hl', hl, List.append_assoc]
  · exact fun c hc => (List.mem_append.mp hc).elim (hm c) (hm' c)

/-- What follows with the same parameters, fault, flag and trace takes nothing back either. -/
theorem Extends.same {s t u : State} (h : Extends s t) (hu : u.kept = t.kept) : Extends s u := h.trans (.of_kept hu)

/-- A second model fault leaves the first one's reason (log 12). -/
theorem Extends.markFault (f : ModelFault) (s : State) : Extends s (s.markFault f) where
  cfg := rfl
  fault g hg := by simp [State.markFault, hg]
  term := id
  out := ⟨[], by simp, by simp⟩

/-! ### Memory, registers and the channel -/

theorem memWrite_extends {off n : Nat} {v : Word} {s s' : State} (h : memWrite off n v s = .ok s') :
    Extends s s' := by
  obtain ⟨r, -, -, ⟨-, rfl⟩ | ⟨-, -, -, rfl⟩ | ⟨-, -, -, rfl⟩⟩ := memWrite_cases h
  · exact .markFault _ s
  · exact .markFault _ s
  · exact .of_kept rfl

theorem regWrite_extends {r : Reg} {eff : State → State} {s s' : State} (he : (eff s).kept = s.kept)
    (h : regWrite r eff s = .ok s') : Extends s s' := by
  obtain ⟨-, ⟨-, rfl⟩ | ⟨-, rfl⟩⟩ := regWrite_cases h
  · exact .of_kept he
  · exact .markFault _ s

theorem cmWrite_extends {r : Reg} {p : Nat} {eff : State → State} {s s' : State} (he : (eff s).kept = s.kept)
    (h : cmWrite r p eff s = .ok s') : Extends s s' := by
  obtain ⟨-, -, ⟨-, rfl⟩ | ⟨-, rfl⟩⟩ := cmWrite_cases h
  · exact .of_kept he
  · exact .markFault _ s

theorem dmaStart_extends {s s' : State} (h : dmaStart s = .ok s') : Extends s s' := by
  obtain ⟨-, rfl⟩ | ⟨-, rfl⟩ | ⟨cb, -, -, rfl⟩ | ⟨cb, -, -, rfl⟩ := dmaStart_cases h
  · exact .refl _
  · exact .markFault _ s
  · exact .of_kept rfl
  · have load : Extends s { s with dma := { s.dma with cb := cb, next := 0 } } := .of_kept rfl
    exact load.trans (.markFault _ _)

theorem csWrite_extends {p : Nat} {s s' : State} (h : csWrite p s = .ok s') : Extends s s' := by
  obtain ⟨-, ⟨-, rfl⟩ | ⟨-, h⟩⟩ := csWrite_cases h
  · exact .markFault _ s
  · have prio : Extends s (writePriority p s) := .of_kept rfl
    exact prio.trans (dmaStart_extends h)

theorem mapClose_extends (s : State) : Extends s (mapClose s) := by
  obtain ⟨-, h⟩ | ⟨-, h⟩ := mapClose_cases s <;> rw [h]
  · exact .refl s
  · exact .of_kept rfl

/-! ### The procedures -/

/-- Every outcome of the micro-step takes nothing of `s` back. -/
def Proc.ExtendsFrom {α : Type} (p : Proc α) (s : State) : Prop :=
  p.Meets (fun _ t => Extends s t) (Extends s) (fun _ _ t => Extends s t)

section Rules
variable {α β : Type} {s : State}

theorem Proc.extends_after {x : Except Fault State} {k : State → Proc α}
    (hx : ∀ s', x = .ok s' → Extends s s') (hk : ∀ t, Extends s t → (k t).ExtendsFrom s) :
    (Proc.after x k).ExtendsFrom s :=
  Proc.meets_after fun s' h => hk s' (hx s' h)

theorem Proc.extends_regWrite {r : Reg} {eff : State → State} {k : State → Proc α} (he : (eff s).kept = s.kept)
    (hk : ∀ t, Extends s t → (k t).ExtendsFrom s) : (Proc.after (regWrite r eff s) k).ExtendsFrom s :=
  Proc.extends_after (fun _ => regWrite_extends he) hk

theorem Proc.extends_cmWrite {r : Reg} {p : Nat} {eff : State → State} {k : State → Proc α}
    (he : (eff s).kept = s.kept) (hk : ∀ t, Extends s t → (k t).ExtendsFrom s) :
    (Proc.after (cmWrite r p eff s) k).ExtendsFrom s :=
  Proc.extends_after (fun _ => cmWrite_extends he) hk

theorem Proc.extends_read {r : Reg} {value : State → β} {stay : α} {k : β → Proc α}
    (hk : ∀ v, (k v).ExtendsFrom s) : (Proc.read r value stay s k).ExtendsFrom s :=
  Proc.meets_read (fun _ _ => hk _) (fun _ => .markFault _ s)

theorem Proc.extends_ask {r : Request} {stay : α} {k : Answer → State → Proc α}
    (hk : ∀ a t, Extends s t → (k a t).ExtendsFrom s) : (Proc.ask r stay s k).ExtendsFrom s :=
  Proc.meets_ask (fun _ => .of_kept rfl) (fun _ _ => .refl s) (fun a _ => hk a _ (.of_kept rfl))

theorem Proc.extends_call {p : Proc β} {wrap : β → α} {next : State → Proc α} (hp : p.ExtendsFrom s)
    (hn : ∀ t, Extends s t → (next t).ExtendsFrom s) : (p.call wrap next).ExtendsFrom s :=
  Proc.meets_call (Proc.Meets.mono hp (fun _ _ h => h) hn (fun _ _ _ h => h))

/-- The one undo of this model is MAP_CLOSE (R213). -/
theorem Proc.extends_callUndo {p : Proc β} {wrap : β → α} {next : State → Proc α} (hp : p.ExtendsFrom s)
    (hn : ∀ t, Extends s t → (next t).ExtendsFrom s) : (p.callUndo wrap mapClose next).ExtendsFrom s :=
  Proc.meets_callUndo (Proc.Meets.mono hp (fun _ _ h => h) hn (fun _ _ t h => h.trans (mapClose_extends t)))

end Rules

theorem waitStep_extends (w : WaitStep) (s : State) : (waitStep w s).ExtendsFrom s := by
  unfold waitStep
  cases w with
  | w1 => refine Proc.extends_read fun _ => ?_; split <;> exact Extends.refl s
  | w2 => refine Proc.extends_read fun _ => ?_; split <;> exact Extends.of_kept rfl

theorem transmitStep_extends (x : TransmitStep) (s : State) : (transmitStep x s).ExtendsFrom s := by
  have store {off : Nat} {v : Word} {l : TransmitStep} : (Proc.after (memWrite off 4 v s) (.goto l)).ExtendsFrom s :=
    Proc.extends_after (fun _ => memWrite_extends) (fun _ h => h)
  cases x with
  | x1 => simp only [transmitStep]; split <;> exact .refl s
  | x2 => simp only [transmitStep]; split <;> exact .refl s
  | x3 i =>
    simp only [transmitStep]
    split
    · exact .refl s
    · exact store
  | x4 j =>
    simp only [transmitStep]
    split
    · trivial
    · split
      · exact .refl s
      · exact store
  | x5 => exact Proc.extends_regWrite rfl (fun _ h => h)
  | x6 =>
    simp only [transmitStep]
    split
    · trivial
    · exact Proc.extends_regWrite rfl (fun _ h => h)
  | x7 => exact Proc.extends_after (fun _ => csWrite_extends) (fun _ h => h.same rfl)

theorem sendStep_extends (e : SendStep) (s : State) : (sendStep e s).ExtendsFrom s := by
  cases e with
  | e1 => exact .of_kept rfl
  | e2 w => exact Proc.extends_call (waitStep_extends w s) (fun _ h => h)
  | e3 x => exact Proc.extends_call (transmitStep_extends x s) (fun _ h => h)
  | e4 w => exact Proc.extends_call (waitStep_extends w s) (fun _ h => h)

theorem clearStep_extends (c : ClearStep) (s : State) : (clearStep c s).ExtendsFrom s := by
  cases c with
  | fill => exact .of_kept rfl
  | send e => exact Proc.extends_call (sendStep_extends e s) (fun _ h => h)

theorem releaseStep_extends (l : ReleaseStep) (s : State) : (releaseStep l s).ExtendsFrom s := by
  unfold releaseStep
  split
  · cases l with
    | l1 w =>
      dsimp only
      split
      · exact Proc.extends_call (waitStep_extends w s) (fun _ h => h)
      · exact .refl s
    | l2 | l3 | l4 | l5 => exact .of_kept rfl
  · exact .refl s

theorem cleanupStep_extends (c : CleanupStep) (s : State) : (cleanupStep c s).ExtendsFrom s := by
  cases c with
  | c1 a => exact Proc.extends_call (clearStep_extends a s) (fun _ h => h)
  | c2 l => exact Proc.extends_call (releaseStep_extends l s) (fun _ h => h)
  | c3 => exact mapClose_extends s
  | c4 => exact .of_kept rfl

theorem mapStep_extends (m : MapStep) (s : State) : (mapStep m s).ExtendsFrom s := by
  unfold mapStep
  cases m with
  | m1 | m2 b => refine Proc.extends_ask fun _ _ h => ?_; split <;> exact h.same rfl
  | m3 => exact .of_kept rfl

theorem allocateStep_extends (n : Nat) (a : AllocateStep) (s : State) : (allocateStep n a s).ExtendsFrom s := by
  unfold allocateStep
  cases a with
  | a0 => dsimp only; split <;> exact .refl s
  | a1 | a2 | a3 h | a4 h b => refine Proc.extends_ask fun _ _ h => ?_; split <;> exact h.same (by simp)
  | a5 h b v => exact .of_kept rfl

theorem configureStep_extends (e : PinEntry) (k : ConfigureStep) (s : State) : (configureStep e k s).ExtendsFrom s := by
  unfold configureStep
  cases k with
  | k1 | k2 | k8 | k9 | k10 => exact Proc.extends_regWrite rfl (fun _ h => h)
  | k3 | k5 | k6 => exact Proc.extends_cmWrite rfl (fun _ h => h)
  | k4 | k7 => exact Proc.extends_read fun _ => Extends.refl s
  | k4Busy | k4Time | k7Wait => refine Proc.extends_read fun _ => ?_; split <;> exact Extends.refl s

theorem setupStep_extends (pin n : Int) (st : SetupStep) (s : State) : (setupStep pin n st s).ExtendsFrom s := by
  cases st with
  | s1 => simp only [setupStep]; split <;> exact .refl s
  | s2 => simp only [setupStep]; split <;> exact .refl s
  | s3 e => simp only [setupStep]; split <;> exact .of_kept rfl
  | s4 e m => exact Proc.extends_call (mapStep_extends m s) (fun _ h => h)
  | s5 e k => exact Proc.extends_callUndo (configureStep_extends e k s) (fun _ h => h)
  | s6 e a => exact Proc.extends_callUndo (allocateStep_extends _ a s) (fun _ h => h)
  | s7 e => exact .of_kept rfl

/-! ### The agents and the step -/

/-- A command's micro-step takes nothing back where its procedure does not and its end keeps what `kept` names. -/
theorem resolve_extends {α : Type} {wrap : α → Pc} {finish : State → State} {p : Proc α} {s t : State}
    (h : resolve wrap finish p = .next t) (hf : ∀ u : State, (finish u).kept = u.kept) (hp : p.ExtendsFrom s) :
    Extends s t :=
  resolve_meets h (hp.mono (fun _ _ h => h.same rfl) (fun _ h => h.same (hf _)) (fun _ _ _ h => h.same rfl))

theorem microStep_extends {s t : State} (h : microStep s = .next t) : Extends s t := by
  unfold microStep at h
  split at h
  · cases h; exact .refl s
  · exact resolve_extends h (fun _ => rfl) (setupStep_extends _ _ _ s)
  · exact resolve_extends h (fun _ => rfl) (sendStep_extends _ s)
  · exact resolve_extends h (fun _ => rfl) (clearStep_extends _ s)
  · exact resolve_extends h (fun _ => rfl) (cleanupStep_extends _ s)
  · exact resolve_extends h (fun _ => rfl) (cleanupStep_extends _ s)

theorem dmaStep_extends {s t : State} (h : dmaStep s = .next t) : Extends s t := by
  obtain rfl | ⟨w, -, -, -, -, -, rfl⟩ | ⟨-, rfl⟩ | ⟨-, -, rfl⟩ | ⟨-, -, rfl⟩ := dmaStep_cases h
  · exact .refl _
  · exact .of_kept rfl
  · exact .markFault _ s
  · exact .markFault _ s
  · exact .of_kept rfl

/-- The PWM agent is the only one that adds to the trace, and its mark is within its range (R141, R142). -/
theorem pwmStep_extends (s : State) : Extends s (pwmStep s) := by
  obtain ⟨-, h⟩ | ⟨-, rest, m, -, hm, h⟩ := pwmStep_cases s <;> rw [h]
  · exact .refl s
  · exact ⟨rfl, fun _ => id, id, _, rfl, by simpa using hm⟩

theorem clkStep_extends (s : State) : Extends s (clkStep s) := by
  obtain ⟨-, h⟩ | ⟨-, h⟩ := clkStep_cases s <;> rw [h] <;> exact .of_kept rfl

/-- HOST is the only agent that writes the termination flag, and only raises it (R29). -/
theorem hostStep_extends (s : State) : Extends s (hostStep s) := by
  obtain ⟨acts, n, input, term, h, hterm, -⟩ := hostStep_cases s
  rw [h]
  exact ⟨rfl, fun _ => id, hterm, [], by simp, by simp⟩

theorem platformStep_extends (s : State) : Extends s (platformStep s) := by
  obtain ⟨-, h⟩ | ⟨r, a, as, n, -, h⟩ := platformStep_cases s <;> rw [h] <;> exact .of_kept rfl

theorem agentStep_extends {a : Agent} {s t : State} (h : agentStep a s = .next t) : Extends s t := by
  cases a with
  | seq => exact microStep_extends h
  | dma => exact dmaStep_extends h
  | pwm => cases h; exact pwmStep_extends s
  | clk => cases h; exact clkStep_extends s
  | timer => cases h; exact .of_kept rfl
  | host => cases h; exact hostStep_extends s
  | platform => cases h; exact platformStep_extends s

theorem performFrom_extends {pc : Pc} {s t : State} (h : performFrom pc s = .next t) : Extends s t :=
  performFrom_keeps (P := Extends s) (pc := pc) (fun _ _ _ hs h => hs.trans (agentStep_extends h))
    (fun _ _ hs => hs.same rfl) (.of_kept rfl) h

theorem dispatch_extends {gate : Life → Gate} {perform : State → Host.Outcome State Fault Refusal} {s t : State}
    (h : dispatch gate perform s = .next t) (hp : perform s = .next t → Extends s t) : Extends s t := by
  obtain ⟨-, ⟨-, h⟩ | ⟨st, d, -, rfl⟩⟩ := dispatch_next h
  · exact hp h
  · exact .of_kept rfl

theorem setEntry_extends (index r g b : Int) (s : State) : Extends s (setEntry index r g b s) := by
  obtain ⟨fb, h, -⟩ := setEntry_fb index r g b s
  rw [h]
  exact .of_kept rfl

theorem exec_extends {i : Instr} {s t : State} (h : exec i s = .next t) : Extends s t := by
  unfold exec at h
  cases i with
  | setup | send | clearAll | cleanup => exact dispatch_extends h performFrom_extends
  | setColor | setColorHsb =>
    exact dispatch_extends h fun hn => by cases hn; exact (setEntry_extends _ _ _ _ s).same rfl
  | encode | hsbToRgb => exact dispatch_extends h fun hn => by cases hn; exact .of_kept rfl

theorem serveTermination_extends (s : State) : Extends s (serveTermination s) := by
  unfold serveTermination
  split <;> exact .of_kept rfl

theorem illegalCommand_extends (s : State) : Extends s (illegalCommand s) := by
  unfold illegalCommand
  split <;> exact .of_kept rfl

theorem seqStep_extends {s t : State} (h : seqStep s = .next t) : Extends s t := by
  have taken (rest : List Byte) : Extends s { s with input := rest } := .of_kept rfl
  unfold seqStep at h
  split at h
  · obtain ⟨-, hf⟩ | ⟨-, ⟨-, hf⟩ | ⟨op, -, hf⟩ | ⟨op, rest, -, hf⟩ | ⟨i, rest, -, hf⟩⟩ := fetch_cases s <;> rw [hf] at h
    · cases h; exact serveTermination_extends s
    · cases h; exact .refl s
    · cases h
    · cases h; exact (taken rest).trans (illegalCommand_extends _)
    · exact (taken rest).trans (exec_extends h)
  · exact microStep_extends h

theorem step_extends {s t : State} (h : step s = .next t) : Extends s t := by
  obtain ⟨as, n, hn⟩ := nextAgent_state s
  have drawn : Extends s (nextAgent s).2 := by rw [hn]; exact .of_kept rfl
  obtain ⟨-, ⟨-, h⟩ | ⟨-, h⟩⟩ := step_next h
  · exact drawn.trans (seqStep_extends h)
  · exact drawn.trans (agentStep_extends h)

/-- Settles O60: `Extends` is reflexive and transitive, and every agent's step and every command's meaning keeps it. -/
theorem nothingIsTakenBack : Obligations.NothingIsTakenBack := by
  intro s t h
  obtain ⟨hc, hf, hp, ho⟩ := step_extends h
  exact ⟨hc, hf, hp, ho⟩

/-! ## No agent looks at the schedule

`performFrom` lets the agents move in a state that keeps the whole schedule; single steps spend the schedule as they go.
Both reach the same state, because no agent reads or writes it: each step commutes with setting it. -/

/-- The state with this schedule. -/
def State.setSched (as : List Agent) (s : State) : State := { s with sched := as }

section Fields
variable (as : List Agent) (s : State)

@[simp] theorem State.setSched_cfg : (s.setSched as).cfg = s.cfg := rfl
@[simp] theorem State.setSched_pc : (s.setSched as).pc = s.pc := rfl
@[simp] theorem State.setSched_resetGapLength : (s.setSched as).resetGapLength = s.resetGapLength := rfl
@[simp] theorem State.setSched_region : (s.setSched as).region = s.region := rfl
@[simp] theorem State.setSched_stage : (s.setSched as).stage = s.stage := rfl
@[simp] theorem State.setSched_dma : (s.setSched as).dma = s.dma := rfl
@[simp] theorem State.setSched_fifo : (s.setSched as).fifo = s.fifo := rfl
@[simp] theorem State.setSched_exchange : (s.setSched as).exchange = s.exchange := rfl
@[simp] theorem State.setSched_answers : (s.setSched as).answers = s.answers := rfl
@[simp] theorem State.setSched_hostActs : (s.setSched as).hostActs = s.hostActs := rfl

@[simp] theorem regionAddr_setSched (off : Nat) : regionAddr off (s.setSched as) = regionAddr off s := rfl
@[simp] theorem busRead_setSched (addr : Nat) : busRead addr (s.setSched as) = busRead addr s := rfl

end Fields

/-- The same outcome with this schedule in its state. -/
def Proc.setSched {α : Type} (as : List Agent) : Proc α → Proc α
  | .goto l s => .goto l (s.setSched as)
  | .done s => .done (s.setSched as)
  | .raise st d s => .raise st d (s.setSched as)
  | .stop f => .stop f

/-- The same outcome of a step with this schedule in its state. -/
def outcomeSetSched (as : List Agent) : Host.Outcome State Fault Refusal → Host.Outcome State Fault Refusal
  | .next s => .next (s.setSched as)
  | .fault f => .fault f
  | .refused r => .refused r

/-- A choice commutes with `f` where its two branches do. The condition, read off two states that agree on it, may be
decided by two procedures. -/
theorem ite_eq_apply_ite {γ δ : Type} {f : γ → δ} {c : Prop} {d d' : Decidable c} {x y : γ} {x' y' : δ}
    (hx : x' = f x) (hy : y' = f y) : @ite δ c d' x' y' = f (@ite γ c d x y) := by
  by_cases hc : c
  · rw [if_pos hc, if_pos hc, hx]
  · rw [if_neg hc, if_neg hc, hy]

/-! ### Memory, registers and the channel -/

section Operations
variable {as : List Agent} {s : State}

theorem regWrite_setSched {r : Reg} {eff : State → State} (he : eff (s.setSched as) = (eff s).setSched as) :
    regWrite r eff (s.setSched as) = (regWrite r eff s).map (State.setSched as) :=
  ite_eq_apply_ite (ite_eq_apply_ite (congrArg Except.ok he) rfl) rfl

theorem cmWrite_setSched {r : Reg} {p : Nat} {eff : State → State} (he : eff (s.setSched as) = (eff s).setSched as) :
    cmWrite r p eff (s.setSched as) = (cmWrite r p eff s).map (State.setSched as) :=
  ite_eq_apply_ite (regWrite_setSched he) rfl

theorem memWrite_setSched (off n : Nat) (v : Word) :
    memWrite off n v (s.setSched as) = (memWrite off n v s).map (State.setSched as) := by
  simp only [memWrite, State.setSched_region]
  cases s.region with
  | none => rfl
  | some r => exact ite_eq_apply_ite rfl (ite_eq_apply_ite rfl (ite_eq_apply_ite rfl rfl))

theorem loadWords_setSched (n : Nat) : ∀ addr, loadWords addr (s.setSched as) n = loadWords addr s n := by
  induction n with
  | zero => intro addr; rfl
  | succ n ih => intro addr; simp only [loadWords, busRead_setSched, ih]

theorem loadBlock_setSched (addr : Word) : loadBlock addr (s.setSched as) = loadBlock addr s := by
  simp only [loadBlock, loadWords_setSched]

theorem dmaStart_setSched : dmaStart (s.setSched as) = (dmaStart s).map (State.setSched as) := by
  simp only [dmaStart, State.setSched_dma, loadBlock_setSched]
  refine ite_eq_apply_ite rfl ?_
  obtain f | cb | _ := loadBlock s.dma.conblkAd s
  · rfl
  · exact ite_eq_apply_ite rfl rfl
  · rfl

theorem csWrite_setSched (p : Nat) : csWrite p (s.setSched as) = (csWrite p s).map (State.setSched as) := by
  have start : dmaStart (writePriority p (s.setSched as)) = (dmaStart (writePriority p s)).map (State.setSched as) :=
    dmaStart_setSched (s := writePriority p s)
  exact ite_eq_apply_ite (ite_eq_apply_ite start rfl) rfl

theorem mapClose_setSched : mapClose (s.setSched as) = (mapClose s).setSched as :=
  ite_eq_apply_ite rfl rfl

end Operations

/-! ### The ways a procedure is built -/

section Rules
variable {α β : Type} {as : List Agent} {s : State}

theorem Proc.after_setSched {x y : Except Fault State} {k : State → Proc α} (hx : y = x.map (State.setSched as))
    (hk : ∀ t, k (t.setSched as) = (k t).setSched as) : Proc.after y k = (Proc.after x k).setSched as := by
  subst hx
  cases x with
  | error f => rfl
  | ok t => exact hk t

theorem Proc.after_regWrite_setSched {r : Reg} {eff : State → State} {k : State → Proc α}
    (he : eff (s.setSched as) = (eff s).setSched as) (hk : ∀ t, k (t.setSched as) = (k t).setSched as) :
    Proc.after (regWrite r eff (s.setSched as)) k = (Proc.after (regWrite r eff s) k).setSched as :=
  Proc.after_setSched (regWrite_setSched he) hk

theorem Proc.after_cmWrite_setSched {r : Reg} {p : Nat} {eff : State → State} {k : State → Proc α}
    (he : eff (s.setSched as) = (eff s).setSched as) (hk : ∀ t, k (t.setSched as) = (k t).setSched as) :
    Proc.after (cmWrite r p eff (s.setSched as)) k = (Proc.after (cmWrite r p eff s) k).setSched as :=
  Proc.after_setSched (cmWrite_setSched he) hk

theorem Proc.read_setSched {r : Reg} {value : State → β} {stay : α} {k k' : β → Proc α}
    (hv : value (s.setSched as) = value s) (hk : ∀ v, k' v = (k v).setSched as) :
    Proc.read r value stay (s.setSched as) k' = (Proc.read r value stay s k).setSched as := by
  unfold Proc.read
  rw [hv]
  exact ite_eq_apply_ite (ite_eq_apply_ite (hk _) rfl) rfl

theorem Proc.ask_setSched {r : Request} {stay : α} {k : Answer → State → Proc α}
    (hk : ∀ a t, k a (t.setSched as) = (k a t).setSched as) :
    Proc.ask r stay (s.setSched as) k = (Proc.ask r stay s k).setSched as := by
  simp only [Proc.ask, State.setSched_exchange]
  cases s.exchange with
  | quiet | asked => rfl
  | answered a => exact hk a (s.setExchange .quiet)

theorem Proc.call_setSched {p p' : Proc β} {wrap : β → α} {next : State → Proc α} (hp : p' = p.setSched as)
    (hn : ∀ t, next (t.setSched as) = (next t).setSched as) :
    p'.call wrap next = (p.call wrap next).setSched as := by
  subst hp
  cases p with
  | done t => exact hn t
  | goto | raise | stop => rfl

/-- The one undo of this model is MAP_CLOSE (R213). -/
theorem Proc.callUndo_setSched {p p' : Proc β} {wrap : β → α} {next : State → Proc α} (hp : p' = p.setSched as)
    (hn : ∀ t, next (t.setSched as) = (next t).setSched as) :
    p'.callUndo wrap mapClose next = (p.callUndo wrap mapClose next).setSched as := by
  subst hp
  cases p with
  | done t => exact hn t
  | raise st d t => exact congrArg (Proc.raise st d) mapClose_setSched
  | goto | stop => rfl

theorem resolve_setSched {wrap : α → Pc} {finish : State → State} {p p' : Proc α} (hp : p' = p.setSched as)
    (hf : ∀ t, finish (t.setSched as) = (finish t).setSched as) :
    resolve wrap finish p' = outcomeSetSched as (resolve wrap finish p) := by
  subst hp
  cases p with
  | done t => exact congrArg Host.Outcome.next (hf t)
  | goto | raise | stop => rfl

end Rules

/-! ### The procedures -/

section Procedures
variable {as : List Agent} {s : State}

theorem waitStep_setSched (w : WaitStep) : waitStep w (s.setSched as) = (waitStep w s).setSched as := by
  unfold waitStep
  cases w with
  | w1 | w2 => exact Proc.read_setSched rfl fun v => ite_eq_apply_ite rfl rfl

theorem transmitStep_setSched (x : TransmitStep) :
    transmitStep x (s.setSched as) = (transmitStep x s).setSched as := by
  simp only [transmitStep, State.setSched_stage, State.setSched_cfg, regionAddr_setSched]
  cases x with
  | x1 | x2 => exact ite_eq_apply_ite rfl rfl
  | x3 i =>
    dsimp only
    cases s.stage[i]? with
    | none => rfl
    | some e => exact Proc.after_setSched (memWrite_setSched _ _ _) (fun _ => rfl)
  | x4 j =>
    dsimp only
    cases regionAddr cbBytes s with
    | error f => rfl
    | ok source =>
      dsimp only
      cases (controlWords s.cfg source s.stage.length)[j]? with
      | none => rfl
      | some w => exact Proc.after_setSched (memWrite_setSched _ _ _) (fun _ => rfl)
  | x5 => exact Proc.after_regWrite_setSched rfl (fun _ => rfl)
  | x6 =>
    dsimp only
    cases regionAddr 0 s with
    | error f => rfl
    | ok a => exact Proc.after_regWrite_setSched rfl (fun _ => rfl)
  | x7 => exact Proc.after_setSched (csWrite_setSched _) (fun _ => rfl)

theorem sendStep_setSched (e : SendStep) : sendStep e (s.setSched as) = (sendStep e s).setSched as := by
  cases e with
  | e1 => rfl
  | e2 w | e4 w => exact Proc.call_setSched (waitStep_setSched w) (fun _ => rfl)
  | e3 x => exact Proc.call_setSched (transmitStep_setSched x) (fun _ => rfl)

theorem clearStep_setSched (c : ClearStep) : clearStep c (s.setSched as) = (clearStep c s).setSched as := by
  cases c with
  | fill => rfl
  | send e => exact Proc.call_setSched (sendStep_setSched e) (fun _ => rfl)

theorem releaseStep_setSched (l : ReleaseStep) : releaseStep l (s.setSched as) = (releaseStep l s).setSched as := by
  refine ite_eq_apply_ite ?_ rfl
  cases l with
  | l1 w => exact ite_eq_apply_ite (Proc.call_setSched (waitStep_setSched w) (fun _ => rfl)) rfl
  | l2 | l3 | l4 | l5 => rfl

theorem cleanupStep_setSched (c : CleanupStep) : cleanupStep c (s.setSched as) = (cleanupStep c s).setSched as := by
  cases c with
  | c1 a => exact Proc.call_setSched (clearStep_setSched a) (fun _ => rfl)
  | c2 l => exact Proc.call_setSched (releaseStep_setSched l) (fun _ => rfl)
  | c3 => exact congrArg (Proc.goto CleanupStep.c4) mapClose_setSched
  | c4 => rfl

theorem mapStep_setSched (m : MapStep) : mapStep m (s.setSched as) = (mapStep m s).setSched as := by
  unfold mapStep
  cases m with
  | m1 | m2 b => exact Proc.ask_setSched fun a t => ite_eq_apply_ite rfl rfl
  | m3 => rfl

theorem allocateStep_setSched (n : Nat) (a : AllocateStep) :
    allocateStep n a (s.setSched as) = (allocateStep n a s).setSched as := by
  unfold allocateStep
  cases a with
  | a0 => exact ite_eq_apply_ite rfl rfl
  | a1 | a2 | a3 h | a4 h b => exact Proc.ask_setSched fun a t => ite_eq_apply_ite rfl rfl
  | a5 h b v => rfl

theorem configureStep_setSched (e : PinEntry) (k : ConfigureStep) :
    configureStep e k (s.setSched as) = (configureStep e k s).setSched as := by
  unfold configureStep
  cases k with
  | k1 | k2 | k8 | k9 | k10 => exact Proc.after_regWrite_setSched rfl (fun _ => rfl)
  | k3 | k5 | k6 => exact Proc.after_cmWrite_setSched rfl (fun _ => rfl)
  | k4 | k7 => exact Proc.read_setSched rfl (fun _ => rfl)
  | k4Busy | k4Time | k7Wait => exact Proc.read_setSched rfl fun v => ite_eq_apply_ite rfl rfl

theorem setupStep_setSched (pin n : Int) (st : SetupStep) :
    setupStep pin n st (s.setSched as) = (setupStep pin n st s).setSched as := by
  simp only [setupStep, State.setSched_cfg, State.setSched_resetGapLength]
  cases st with
  | s1 => exact ite_eq_apply_ite rfl rfl
  | s2 => dsimp only; cases lookupPin s.cfg pin <;> rfl
  | s3 e => dsimp only; cases deriveTiming s.cfg <;> rfl
  | s4 e m => exact Proc.call_setSched (mapStep_setSched m) (fun _ => rfl)
  | s5 e k => exact Proc.callUndo_setSched (configureStep_setSched e k) (fun _ => rfl)
  | s6 e a => exact Proc.callUndo_setSched (allocateStep_setSched _ a) (fun _ => rfl)
  | s7 e => rfl

end Procedures

/-! ### The agents -/

section Agents
variable {as : List Agent} {s : State}

theorem microStep_setSched : microStep (s.setSched as) = outcomeSetSched as (microStep s) := by
  simp only [microStep, State.setSched_pc]
  cases s.pc with
  | idle => rfl
  | setup pin n st => exact resolve_setSched (setupStep_setSched pin n st) (fun _ => rfl)
  | send st => exact resolve_setSched (sendStep_setSched st) (fun _ => rfl)
  | clearAll st => exact resolve_setSched (clearStep_setSched st) (fun _ => rfl)
  | cleanup st => exact resolve_setSched (cleanupStep_setSched st) (fun _ => rfl)
  | terminate st => exact resolve_setSched (cleanupStep_setSched st) (fun _ => rfl)

theorem dmaStep_setSched : dmaStep (s.setSched as) = outcomeSetSched as (dmaStep s) := by
  simp only [dmaStep, State.setSched_dma, busRead_setSched]
  refine ite_eq_apply_ite (ite_eq_apply_ite (ite_eq_apply_ite ?_ rfl) (ite_eq_apply_ite rfl rfl)) rfl
  obtain f | w | _ := busRead (s.dma.cb.source.toNat + 4 * s.dma.next) s
  · rfl
  · exact ite_eq_apply_ite rfl rfl
  · rfl

theorem pwmStep_setSched : pwmStep (s.setSched as) = (pwmStep s).setSched as := by
  simp only [pwmStep, State.setSched_fifo]
  exact ite_eq_apply_ite (by cases s.fifo <;> rfl) rfl

theorem clkStep_setSched : clkStep (s.setSched as) = (clkStep s).setSched as :=
  ite_eq_apply_ite rfl rfl

theorem handOver_setSched (bytes : List Byte) : handOver bytes (s.setSched as) = (handOver bytes s).setSched as :=
  ite_eq_apply_ite rfl rfl

theorem nextHostAct_setSched :
    nextHostAct (s.setSched as) = ((nextHostAct s).1, (nextHostAct s).2.setSched as) := by
  simp only [nextHostAct, State.setSched_hostActs]
  cases s.hostActs <;> rfl

theorem hostStep_setSched : hostStep (s.setSched as) = (hostStep s).setSched as := by
  simp only [hostStep, nextHostAct_setSched]
  obtain ⟨act, t⟩ := nextHostAct s
  cases act with
  | command bytes => exact handOver_setSched bytes
  | terminate => rfl

theorem nextAnswer_setSched : nextAnswer (s.setSched as) = ((nextAnswer s).1, (nextAnswer s).2.setSched as) := by
  simp only [nextAnswer, State.setSched_answers]
  cases s.answers <;> rfl

theorem platformStep_setSched : platformStep (s.setSched as) = (platformStep s).setSched as := by
  simp only [platformStep, State.setSched_exchange, nextAnswer_setSched]
  cases s.exchange <;> rfl

theorem agentStep_setSched (a : Agent) : agentStep a (s.setSched as) = outcomeSetSched as (agentStep a s) := by
  cases a with
  | seq => exact microStep_setSched
  | dma => exact dmaStep_setSched
  | pwm => exact congrArg Host.Outcome.next pwmStep_setSched
  | clk => exact congrArg Host.Outcome.next clkStep_setSched
  | timer => rfl
  | host => exact congrArg Host.Outcome.next hostStep_setSched
  | platform => exact congrArg Host.Outcome.next platformStep_setSched

end Agents

/-! ## A command run step by step -/

/-- A run takes its first step and goes on from there. -/
theorem run_succ {k : Nat} {s s' : State} (h : step s = .next s') :
    Host.Core.run Sys2Proof.core (k + 1) s = Host.Core.run Sys2Proof.core k s' := by
  have hcore : Sys2Proof.core.step s = .next s' := h
  simp only [Host.Core.run, hcore]

/-- What the agents of a schedule reach one after another, single steps reach, drawing the same agents. -/
theorem run_of_drive (as : List Agent) : ∀ (s t : State) (rest : List Agent), configOk s.cfg = true →
    drive as s = .next (t, rest) →
    ∃ k, k ≤ as.length ∧ Host.Core.run Sys2Proof.core k (s.setSched as) = .next (t.setSched rest) := by
  induction as with
  | nil =>
    intro s t rest _ h
    cases h
    exact ⟨0, le_rfl, rfl⟩
  | cons a as ih =>
    intro s t rest hc h
    by_cases hp : s.pc = .idle
    · rw [drive_idle hp] at h
      cases h
      exact ⟨0, Nat.zero_le _, rfl⟩
    · unfold drive at h
      rw [if_neg hp] at h
      split at h
      · next s' ha =>
        obtain ⟨k, hk, hrun⟩ := ih s' t rest (by rw [(agentStep_extends ha).cfg]; exact hc) h
        have hstep : step (s.setSched (a :: as)) = .next (s'.setSched as) := by
          have hs : step (s.setSched (a :: as)) = agentStep a (s.setSched as) := step_agent hc hp rfl
          rw [hs, agentStep_setSched, ha, outcomeSetSched]
        exact ⟨k + 1, Nat.succ_le_succ hk, (run_succ hstep).trans hrun⟩
      · cases h
      · cases h

/-- Settles O21, by induction on the schedule (`run_of_drive`). -/
theorem commandRunsStepByStep : Obligations.CommandRunsStepByStep := by
  intro s t pc hc _ h
  unfold performFrom at h
  split at h
  · next s' rest hd =>
    cases h
    exact run_of_drive s.sched (s.setPc pc) s' rest hc hd
  · cases h
  · cases h

end Sys2Proof.Machine

/-! Settles the state's statements (10_state.md). SUPPORT first: what the idle sequencer does; what holds of every step; the
frame of each procedure. -/

namespace Sys2Proof.Machine

/-! ## The idle sequencer -/

/-- The first micro-step of each procedure, in the lifecycle state that begins it (R211, R284). -/
inductive Starts : Life → Pc → Prop where
  | setup (pin n : Int) : Starts .unconfigured (.setup pin n .s1)
  | send : Starts .ready (.send .e1)
  | clearAll : Starts .ready (.clearAll .fill)
  | cleanup : Starts .ready (.cleanup (.c1 .fill))
  | terminate : Starts .ready (.terminate (.c1 .fill))

/-- What the idle sequencer changes in one go: it takes bytes, answers and colours an LED; it halts an Unconfigured
block; or it moves to a procedure's first micro-step (R210, R211, R284). -/
inductive IdleChange (s : State) : State → Prop where
  | answer (input : List Byte) (resp : Response) {fb : List Color} (h : fb.length = s.fb.length) :
      IdleChange s { s with input := input, resp := resp, fb := fb }
  | halt (h : s.life = .unconfigured) : IdleChange s { s with life := .halted }
  | start {pc : Pc} (h : Starts s.life pc) : IdleChange s (s.setPc pc)

theorem State.setPc_self {s : State} {pc : Pc} (h : s.pc = pc) : s.setPc pc = s := by
  subst h
  rfl

/-- The idle sequencer never changes the parameters (R9). -/
theorem IdleChange.cfg {s t : State} (h : IdleChange s t) : t.cfg = s.cfg := by
  cases h <;> rfl

/-- An idle sequencer that ends a command only answers. -/
theorem endCommand_idle {s : State} (hp : s.pc = .idle) (payload : List Byte) :
    endCommand payload s = s.respond .ok .none payload :=
  State.setPc_self hp

theorem gateSetup_perform {l : Life} (h : gateSetup l = .perform) : l = .unconfigured := by
  cases l <;> simp_all [gateSetup]

theorem gateReady_perform {l : Life} (h : gateReady l = .perform) : l = .ready := by
  cases l <;> simp_all [gateReady]

theorem gateCleanup_perform {l : Life} (h : gateCleanup l = .perform) : l = .ready := by
  cases l <;> simp_all [gateCleanup]

/-- Dispatch in the idle sequencer, forwards: the gate answers, or the command is performed (R211). -/
theorem dispatch_cases (gate : Life → Gate) (perform : State → Host.Outcome State Fault Refusal) {s : State}
    (hp : s.pc = .idle) :
    (∃ st d, dispatch gate perform s = .next (s.respond st d []))
      ∨ gate s.life = .perform ∧ dispatch gate perform s = perform s := by
  cases hg : gate s.life with
  | perform => exact .inr ⟨rfl, dispatch_perform hp hg⟩
  | reply st d => exact .inl ⟨st, d, dispatch_reply hp hg⟩

/-- A command handed to the idle sequencer is answered in one go, or performed from its first micro-step (R211). -/
theorem exec_cases (i : Instr) {s : State} (hp : s.pc = .idle) :
    (∃ resp fb, fb.length = s.fb.length ∧ exec i s = .next { s with resp := resp, fb := fb })
      ∨ ∃ pc, Starts s.life pc ∧ exec i s = performFrom pc s := by
  have color (index r g b : Int) : ∃ resp fb, fb.length = s.fb.length
      ∧ endCommand [] (setEntry index r g b s) = { s with resp := resp, fb := fb } := by
    obtain ⟨fb, h, hl⟩ := setEntry_fb index r g b s
    exact ⟨_, fb, hl, by rw [h]; exact endCommand_idle (s := { s with fb := fb }) hp []⟩
  have replied {x : Host.Outcome State Fault Refusal} (h : ∃ st d, x = .next (s.respond st d [])) :
      ∃ resp fb, fb.length = s.fb.length ∧ x = .next { s with resp := resp, fb := fb } := by
    obtain ⟨st, d, h⟩ := h
    exact ⟨_, s.fb, rfl, h⟩
  have performed {gate : Life → Gate} {perform : State → Host.Outcome State Fault Refusal} :=
    (dispatch_cases gate perform hp).imp_left replied
  unfold exec
  cases i with
  | setup pin n =>
    refine performed.imp_right ?_
    rintro ⟨hg, h⟩
    exact ⟨_, by rw [gateSetup_perform hg]; exact .setup pin n, h⟩
  | send =>
    refine performed.imp_right ?_
    rintro ⟨hg, h⟩
    exact ⟨_, by rw [gateReady_perform hg]; exact .send, h⟩
  | clearAll =>
    refine performed.imp_right ?_
    rintro ⟨hg, h⟩
    exact ⟨_, by rw [gateReady_perform hg]; exact .clearAll, h⟩
  | cleanup =>
    refine performed.imp_right ?_
    rintro ⟨hg, h⟩
    exact ⟨_, by rw [gateCleanup_perform hg]; exact .cleanup, h⟩
  | setColor index r g b =>
    refine .inl (performed.elim id ?_)
    rintro ⟨-, h⟩
    obtain ⟨resp, fb, hl, he⟩ := color index r g b
    exact ⟨resp, fb, hl, h.trans (congrArg _ he)⟩
  | setColorHsb index hue sat v =>
    refine .inl (performed.elim id ?_)
    rintro ⟨-, h⟩
    obtain ⟨resp, fb, hl, he⟩ := color index (hsbColor hue sat v).1 (hsbColor hue sat v).2.1 (hsbColor hue sat v).2.2
    exact ⟨resp, fb, hl, h.trans (congrArg _ he)⟩
  | encode | hsbToRgb h sat v =>
    refine .inl (performed.elim id ?_)
    rintro ⟨-, h⟩
    exact ⟨_, s.fb, rfl, h.trans (by rw [endCommand_idle hp]; rfl)⟩

/-- The idle sequencer says once what it can do: it refuses bytes that are no command, changes something in one go, or
performs a command from its first micro-step (R93, R210, R211, R284). -/
theorem seqStep_idle {s : State} (hp : s.pc = .idle) :
    (seqStep s = .refused .transport ∧ ∃ op, decode s.input = .short op)
      ∨ (∃ t, IdleChange s t ∧ seqStep s = .next t)
      ∨ ∃ u pc, IdleChange s u ∧ u.pc = .idle ∧ Starts u.life pc ∧ seqStep s = performFrom pc u := by
  have step_eq : seqStep s = _ := if_pos hp
  rw [step_eq]
  obtain ⟨hd, hf⟩ | ⟨-, ⟨-, hf⟩ | ⟨op, hop, hf⟩ | ⟨op, rest, -, hf⟩ | ⟨i, rest, -, hf⟩⟩ := fetch_cases s <;> rw [hf]
  · refine .inr (.inl ⟨_, ?_, rfl⟩)
    simp only [terminationDue, Bool.and_eq_true, decide_eq_true_eq] at hd
    unfold serveTermination
    cases hl : s.life with
    | unconfigured => exact .halt hl
    | ready => exact .start (by rw [hl]; exact .terminate)
    | halted => exact absurd hl hd.2
  · exact .inr (.inl ⟨s, .answer s.input s.resp rfl, rfl⟩)
  · exact .inl ⟨rfl, op, hop⟩
  · refine .inr (.inl ⟨_, ?_, rfl⟩)
    unfold illegalCommand
    split <;> exact .answer rest _ rfl
  · obtain ⟨resp, fb, hl, h⟩ | ⟨pc, hst, h⟩ := exec_cases i (s := { s with input := rest }) hp
    · exact .inr (.inl ⟨_, .answer rest resp hl, h⟩)
    · exact .inr (.inr ⟨_, pc, .answer rest s.resp rfl, hp, hst, h⟩)

/-- What every step keeps: what drawing, the idle sequencer's changes and each agent's step keep (R14). -/
theorem step_keeps {P : State → Prop}
    (hdraw : ∀ s sched draws, P s → P { s with sched := sched, draws := draws })
    (hidle : ∀ s t, s.pc = .idle → IdleChange s t → P s → P t)
    (hagent : ∀ a s t, configOk s.cfg = true → agentStep a s = .next t → P s → P t)
    {s t : State} (h : step s = .next t) (hs : P s) : P t := by
  obtain ⟨hc, hmove⟩ := step_next h
  obtain ⟨sched, draws, hdrawn⟩ := nextAgent_state s
  have hcu : configOk (nextAgent s).2.cfg = true := by rw [hdrawn]; exact hc
  have hu : P (nextAgent s).2 := by rw [hdrawn]; exact hdraw s sched draws hs
  generalize (nextAgent s).2 = u at hmove hcu hu
  obtain ⟨-, hseq⟩ | ⟨-, hother⟩ := hmove
  · by_cases hp : u.pc = .idle
    · obtain ⟨he, -⟩ | ⟨v, hv, he⟩ | ⟨v, pc, hv, hvp, hst, he⟩ := seqStep_idle hp <;> rw [he] at hseq
      · cases hseq
      · cases hseq
        exact hidle u t hp hv hu
      · have started := hidle v _ hvp (.start hst) (hidle u v hp hv hu)
        have hcv : configOk v.cfg = true := by rw [hv.cfg]; exact hcu
        refine (performFrom_keeps (P := fun v => configOk v.cfg = true ∧ P v) (pc := pc) ?_ ?_ ⟨hcv, started⟩ hseq).2
        · rintro a v w ⟨hcv, hv⟩ hw
          exact ⟨by rw [(agentStep_extends hw).cfg]; exact hcv, hagent a v w hcv hw hv⟩
        · rintro v rest ⟨hcv, hv⟩
          exact ⟨hcv, hdraw v rest v.draws hv⟩
    · exact hagent .seq u t hcu ((if_neg hp).symm.trans hseq) hu
  · exact hagent _ u t hcu hother hu

/-! ## Single agents -/

/-- The cycle step's conditions, one by one (R36, R141, log 29). -/
theorem pwmEnabled_iff (s : State) : pwmEnabled s = true ↔
    (s.pwm.channel s.ch).pwen = true ∧ (s.pwm.channel s.ch).usef = true ∧ (s.pwm.channel s.ch).msen = true
      ∧ (s.pwm.channel s.ch).mode = .pwm ∧ s.clk.running = true := by
  simp only [pwmEnabled, pwmRunning, Bool.and_eq_true, decide_eq_true_eq]
  tauto

/-- The mark is the lesser of the word and the range (R142, log 11). -/
theorem cycleMark_eq_min (w rng : Word) : cycleMark w rng = BitVec.ofNat 32 (min w.toNat rng.toNat) := by
  unfold cycleMark
  split
  · next h => rw [min_eq_left h, BitVec.ofNat_toNat, BitVec.setWidth_eq]
  · next h => rw [min_eq_right (by omega), BitVec.ofNat_toNat, BitVec.setWidth_eq]

/-- Settles O49: the cycle step by its condition and by the FIFO's head. -/
theorem pwmCycleStep : Obligations.PwmCycleStep := by
  intro s
  refine ⟨fun h => ?_, fun h => ?_⟩
  · have enabled := (pwmEnabled_iff s).mpr h
    refine ⟨fun w ws hf => ?_, fun hf => ?_⟩
    · simp only [agentStep, pwmStep, enabled, if_true, hf, cycleMark_eq_min]
    · simp only [agentStep, pwmStep, enabled, if_true, hf]
  · rw [← pwmEnabled_iff] at h
    simp only [agentStep, pwmStep, if_neg h]

theorem dmaStep_stopped {s : State} (hp : s.dma.phase = .stopped) : dmaStep s = .next s := by
  simp [dmaStep, hp]

theorem dmaStep_move {s : State} {w : Word} (hp : s.dma.phase = .running) (hn : s.dma.next < transferLength s)
    (hd : flagDreq s = true) (hf : fifoInBlock s.cfg = true)
    (hread : busRead (s.dma.cb.source.toNat + 4 * s.dma.next) s = .ok (.word w)) :
    dmaStep s = .next { s with fifo := s.fifo ++ [w], dma := { s.dma with next := s.dma.next + 1 } } := by
  rw [dmaStep, if_pos hp, if_pos hn, if_pos hd, hread]
  exact if_pos hf

theorem dmaStep_wait {s : State} (hp : s.dma.phase = .running) (hn : s.dma.next < transferLength s)
    (hd : flagDreq s = false) : dmaStep s = .next s := by
  rw [dmaStep, if_pos hp, if_pos hn, hd]
  rfl

theorem dmaStep_end {s : State} (hp : s.dma.phase = .running) (hn : s.dma.next = transferLength s) :
    dmaStep s = .next { s with dma := { s.dma with phase := .stopped } } := by
  rw [dmaStep, if_pos hp, if_neg (by omega), if_pos hn]

/-- Settles O50: MOVE, waiting and END, the source word by `busRead_word`. -/
theorem dmaMovesWords : Obligations.DmaMovesWords := by
  intro s hp
  refine ⟨fun hn => ⟨fun he hd hf r off w hr hs ha hw haddr => ?_, fun hwait => ?_⟩, dmaStep_end hp⟩
  · refine dmaStep_move hp hn (by simp [flagDreq, he, hd]) hf ?_
    rw [haddr]
    exact busRead_word hr hs ha hw
  · refine dmaStep_wait hp hn ?_
    rcases hwait with h | h <;> simp [flagDreq, h]

/-! ## The frame of each procedure -/

/-- Every outcome of the micro-step leaves a state in `R`. -/
def Proc.Within {α : Type} (p : Proc α) (R : State → Prop) : Prop := p.Meets (fun _ t => R t) R (fun _ _ t => R t)

section Rules
variable {α β : Type} {R R' : State → Prop}

theorem Proc.Within.mono {p : Proc α} (h : p.Within R) (hR : ∀ t, R t → R' t) : p.Within R' :=
  Proc.Meets.mono h (fun _ => hR) hR (fun _ _ => hR)

theorem Proc.within_regWrite {r : Reg} {eff : State → State} {s : State} {l : α}
    (hfault : R (s.markFault .regOutOfBlock)) (heff : R (eff s)) : (Proc.after (regWrite r eff s) (.goto l)).Within R :=
  Proc.meets_after fun s' h => by
    obtain ⟨-, ⟨-, rfl⟩ | ⟨-, rfl⟩⟩ := regWrite_cases h
    · exact heff
    · exact hfault

theorem Proc.within_read {r : Reg} {value : State → β} {stay : α} {s : State} {k : β → Proc α}
    (hfault : R (s.markFault .regOutOfBlock)) (hk : ∀ v, (k v).Within R) : (Proc.read r value stay s k).Within R :=
  Proc.meets_read (fun _ _ => hk _) (fun _ => hfault)

theorem Proc.within_call {p : Proc β} {wrap : β → α} {next : State → Proc α} (hp : p.Within R)
    (hnext : ∀ t, R t → (next t).Within R) : (p.call wrap next).Within R :=
  Proc.meets_call (Proc.Meets.mono hp (fun _ _ h => h) hnext (fun _ _ _ h => h))

theorem Proc.within_callUndo {p : Proc β} {wrap : β → α} {undo : State → State} {next : State → Proc α}
    (hp : p.Within R) (hundo : ∀ t, R t → R (undo t)) (hnext : ∀ t, R t → (next t).Within R) :
    (p.callUndo wrap undo next).Within R :=
  Proc.meets_callUndo (Proc.Meets.mono hp (fun _ _ h => h) hnext (fun _ _ => hundo))

/-- What holds of every outcome by two counts holds by both. -/
theorem Proc.Meets.and {p : Proc α} {G G' : α → State → Prop} {D D' : State → Prop}
    {E E' : Status → Detail → State → Prop} (h : p.Meets G D E) (h' : p.Meets G' D' E') :
    p.Meets (fun l s => G l s ∧ G' l s) (fun s => D s ∧ D' s) (fun st d s => E st d s ∧ E' st d s) := by
  cases p with
  | goto l s | done s | raise st d s => exact ⟨h, h'⟩
  | stop f => trivial

/-- What holds of every outcome holds of the command's next state, where the micro-step pointer and the command's end
keep it. -/
theorem resolve_within {wrap : α → Pc} {finish : State → State} {p : Proc α} {t : State}
    (h : resolve wrap finish p = .next t) (hp : p.Within R) (hpc : ∀ u pc, R u → R (u.setPc pc))
    (hfinish : ∀ u, R u → R (finish u)) (hraise : ∀ st d u, R u → R (raiseError st d u)) : R t :=
  resolve_meets h (Proc.Meets.mono hp (fun _ u => hpc u _) hfinish hraise)

end Rules

/-- What MAP_OPEN may write (R172). -/
abbrev MapFrame (s t : State) : Prop := t = { s with mapped := t.mapped, plat := t.plat, exchange := t.exchange }

theorem mapStep_frame (m : MapStep) (s : State) : (mapStep m s).Within (MapFrame s) := by
  unfold mapStep
  cases m with
  | m1 | m2 b => exact Proc.meets_ask (fun _ => rfl) (fun _ _ => rfl) (fun a _ => by dsimp only; split <;> rfl)
  | m3 => rfl

/-- What CONFIGURE may write (R137). -/
abbrev ConfigureFrame (s t : State) : Prop :=
  t = { s with gpio := t.gpio, cm := t.cm, pwm := t.pwm, clk := t.clk, fault := t.fault }

theorem configureStep_frame (e : PinEntry) (k : ConfigureStep) (s : State) :
    (configureStep e k s).Within (ConfigureFrame s) := by
  unfold configureStep
  cases k with
  | k1 | k2 | k8 | k9 => exact Proc.within_regWrite rfl rfl
  | k10 => exact Proc.meets_after fun s' h => by obtain ⟨-, ⟨-, rfl⟩ | ⟨-, rfl⟩⟩ := regWrite_cases h <;> rfl
  | k3 | k5 | k6 => exact Proc.meets_after fun s' h => by obtain ⟨-, -, ⟨-, rfl⟩ | ⟨-, rfl⟩⟩ := cmWrite_cases h <;> rfl
  | k4 | k7 => exact Proc.within_read rfl fun _ => rfl
  | k4Busy | k4Time | k7Wait => exact Proc.within_read rfl fun _ => by split <;> rfl

/-- What ALLOCATE may write (R171). -/
abbrev AllocateFrame (s t : State) : Prop :=
  t = { s with region := t.region, plat := t.plat, exchange := t.exchange, mem := t.mem }

theorem AllocateFrame.trans {a b c : State} (h : AllocateFrame a b) (h' : AllocateFrame b c) : AllocateFrame a c := by
  rw [h] at h'
  exact h'

theorem platClose_frame (s : State) : AllocateFrame s (platClose s) := rfl
theorem platFree_frame (s : State) : AllocateFrame s (platFree s) := rfl
theorem platUnlock_frame (s : State) : AllocateFrame s (platUnlock s) := rfl

theorem allocateStep_frame (n : Nat) (a : AllocateStep) (s : State) :
    (allocateStep n a s).Within (AllocateFrame s) := by
  unfold allocateStep
  cases a with
  | a0 => dsimp only; split <;> rfl
  | a1 =>
    refine Proc.meets_ask (fun _ => rfl) (fun _ _ => rfl) (fun a _ => ?_)
    cases a.ok <;> exact rfl
  | a2 =>
    refine Proc.meets_ask (fun _ => rfl) (fun _ _ => rfl) (fun a _ => ?_)
    cases a.ok
    · exact platClose_frame _
    · exact rfl
  | a3 h =>
    refine Proc.meets_ask (fun _ => rfl) (fun _ _ => rfl) (fun a _ => ?_)
    cases a.ok
    · exact (platFree_frame _).trans (platClose_frame _)
    · exact rfl
  | a4 h b =>
    refine Proc.meets_ask (fun _ => rfl) (fun _ _ => rfl) (fun a _ => ?_)
    cases a.ok
    · exact ((platUnlock_frame _).trans (platFree_frame _)).trans (platClose_frame _)
    · exact rfl
  | a5 h b v => rfl

/-! ### What is left alone -/

/-- TIMER's counter, the output trace, and what is HOST's and PLATFORM's: no micro-step writes them (R29, R40, R44, R170). -/
def State.surroundings (s : State) : Word × List Cycle × Bool × List Byte × List Answer × List HostAct :=
  (s.clo, s.out, s.termPending, s.input, s.answers, s.hostActs)

/-- The parameters and the timing registers (R9, R24). -/
def State.timing (s : State) : Config × Nat × Word × Byte × Byte × Nat :=
  (s.cfg, s.div, s.range, s.markZero, s.markOne, s.resetGapLength)

/-- What R314 speaks of: the timing, the pin and its channel, GPIO, the clock and the PWM's registers. -/
def State.hardware (s : State) :=
  (s.timing, s.pin, s.ch, s.gpio, s.cm, s.clk, s.pwm)

/-- What SETUP leaves alone (R212). -/
def State.setupKept (s : State) := (s.cfg, s.stage, s.dma, s.fifo, s.surroundings)

/-- What SEND, CLEAR_ALL and CLEANUP leave alone (R221, R224, R226). -/
def State.cleanupKept (s : State) := (s.hardware, s.fifo, s.exchange, s.surroundings)

/-- What SEND and CLEAR_ALL leave alone is also the lifecycle state. -/
def State.transferKept (s : State) := (s.life, s.cleanupKept)

theorem surroundings_of_setupKept {s t : State} (h : t.setupKept = s.setupKept) : t.surroundings = s.surroundings :=
  congrArg (fun (_, _, _, _, surroundings) => surroundings) h

theorem channel_of_setupKept {s t : State} (h : t.setupKept = s.setupKept) : (t.cfg, t.dma) = (s.cfg, s.dma) :=
  congrArg (fun (cfg, _, dma, _) => (cfg, dma)) h

theorem surroundings_of_cleanupKept {s t : State} (h : t.cleanupKept = s.cleanupKept) :
    t.surroundings = s.surroundings :=
  congrArg (fun (_, _, _, surroundings) => surroundings) h

theorem exchange_of_cleanupKept {s t : State} (h : t.cleanupKept = s.cleanupKept) : t.exchange = s.exchange :=
  congrArg (fun (_, _, exchange, _) => exchange) h

theorem cleanupKept_of_transferKept {s t : State} (h : t.transferKept = s.transferKept) :
    t.cleanupKept = s.cleanupKept :=
  congrArg Prod.snd h

@[simp] theorem mapClose_setupKept (s : State) : (mapClose s).setupKept = s.setupKept := by
  obtain ⟨-, h⟩ | ⟨-, h⟩ := mapClose_cases s
  · rw [h]
  · rw [h]
    rfl

@[simp] theorem mapClose_transferKept (s : State) : (mapClose s).transferKept = s.transferKept := by
  obtain ⟨-, h⟩ | ⟨-, h⟩ := mapClose_cases s
  · rw [h]
  · rw [h]
    rfl

theorem setupStep_kept (pin n : Int) (st : SetupStep) (s : State) :
    (setupStep pin n st s).Within (fun t => t.setupKept = s.setupKept) := by
  cases st with
  | s1 | s2 | s3 e => simp only [setupStep]; split <;> rfl
  | s4 e m => exact Proc.within_call ((mapStep_frame m s).mono fun t h => by rw [h]; rfl) fun _ h => h
  | s5 e k =>
    exact Proc.within_callUndo ((configureStep_frame e k s).mono fun t h => by rw [h]; rfl)
      (fun t h => (mapClose_setupKept t).trans h) fun _ h => h
  | s6 e a =>
    exact Proc.within_callUndo ((allocateStep_frame _ a s).mono fun t h => by rw [h]; rfl)
      (fun t h => (mapClose_setupKept t).trans h) fun _ h => h
  | s7 e => rfl

theorem waitStep_transferKept (w : WaitStep) (s : State) :
    (waitStep w s).Within (fun t => t.transferKept = s.transferKept) :=
  (waitStep_same w s).mono (fun _ _ h => by rw [h]; rfl) (fun _ h => by rw [h]; rfl) fun _ _ _ h => h.elim

theorem sendStep_transferKept (e : SendStep) (s : State) :
    (sendStep e s).Within (fun t => t.transferKept = s.transferKept) :=
  Proc.Within.mono (sendStep_same e s) fun _ h => by rw [h]; rfl

theorem clearStep_transferKept (c : ClearStep) (s : State) :
    (clearStep c s).Within (fun t => t.transferKept = s.transferKept) := by
  cases c with
  | fill => rfl
  | send e => exact Proc.within_call (sendStep_transferKept e s) fun _ h => h

theorem releaseStep_transferKept (l : ReleaseStep) (s : State) :
    (releaseStep l s).Within (fun t => t.transferKept = s.transferKept) := by
  unfold releaseStep
  split
  · cases l with
    | l1 w =>
      dsimp only
      split
      · exact Proc.within_call (waitStep_transferKept w s) fun _ h => h
      · rfl
    | l2 | l3 | l4 | l5 => rfl
  · rfl

/-- `t` is `s` in what CLEANUP leaves alone, and CLEANUP makes no block Ready (R226). -/
def CleanupKeeps (s t : State) : Prop := t.cleanupKept = s.cleanupKept ∧ (t.life = .ready → s.life = .ready)

theorem CleanupKeeps.of_transferKept {s t : State} (h : t.transferKept = s.transferKept) : CleanupKeeps s t := by
  obtain ⟨hlife, hkept⟩ := Prod.mk.inj h
  exact ⟨hkept, fun hr => hlife.symm.trans hr⟩

theorem cleanupStep_keeps (c : CleanupStep) (s : State) : (cleanupStep c s).Within (CleanupKeeps s) := by
  cases c with
  | c1 a =>
    exact Proc.within_call ((clearStep_transferKept a s).mono fun _ => CleanupKeeps.of_transferKept) fun _ h => h
  | c2 l =>
    exact Proc.within_call ((releaseStep_transferKept l s).mono fun _ => CleanupKeeps.of_transferKept) fun _ h => h
  | c3 => exact CleanupKeeps.of_transferKept (mapClose_transferKept s)
  | c4 => exact ⟨rfl, fun h => by cases h⟩

/-- Where SETUP is not in progress, a micro-step leaves alone what CLEANUP does (R221, R224, R226). -/
theorem microStep_keeps {s t : State} (h : microStep s = .next t) (hp : ∀ pin n st, s.pc ≠ .setup pin n st) :
    CleanupKeeps s t := by
  have ended {α : Type} {wrap : α → Pc} {p : Proc α} (h : resolve wrap (endCommand []) p = .next t)
      (hp : p.Within (CleanupKeeps s)) : CleanupKeeps s t :=
    resolve_within h hp (fun _ _ h => h) (fun _ h => h) fun _ _ _ h => h
  unfold microStep at h
  split at h
  · cases h
    exact .of_transferKept rfl
  · next hpc => exact absurd hpc (hp _ _ _)
  · exact ended h ((sendStep_transferKept _ s).mono fun _ => CleanupKeeps.of_transferKept)
  · exact ended h ((clearStep_transferKept _ s).mono fun _ => CleanupKeeps.of_transferKept)
  · exact ended h (cleanupStep_keeps _ s)
  · exact resolve_within h (cleanupStep_keeps _ s) (fun _ _ h => h) (fun _ h => ⟨h.1, fun hr => by cases hr⟩)
      fun _ _ _ h => h

theorem microStep_cleanupKept {s t : State} (h : microStep s = .next t) (hp : ∀ pin n st, s.pc ≠ .setup pin n st) :
    t.cleanupKept = s.cleanupKept := by
  obtain ⟨hkept, -⟩ := microStep_keeps h hp
  exact hkept

/-- No procedure but SETUP leads to one of its micro-steps. -/
theorem microStep_not_setup {s t : State} (h : microStep s = .next t) (hp : ∀ pin n st, s.pc ≠ .setup pin n st) :
    ∀ pin n st, t.pc ≠ .setup pin n st := by
  unfold microStep at h
  split at h
  · cases h
    exact hp
  · next hpc => exact absurd hpc (hp _ _ _)
  all_goals
    obtain ⟨l, u, -, rfl⟩ | ⟨u, -, rfl⟩ | ⟨st, d, u, -, rfl⟩ := resolve_next h <;> (intro pin n st he; cases he)

/-- While SETUP is in progress, a micro-step leaves alone what SETUP does (R212). -/
theorem microStep_setupKept {s t : State} {pin n : Int} {st : SetupStep} (h : microStep s = .next t)
    (hp : s.pc = .setup pin n st) : t.setupKept = s.setupKept := by
  simp only [microStep, hp] at h
  exact resolve_within h (setupStep_kept pin n st s) (fun _ _ h => h) (fun _ h => h) fun _ _ _ h => h

/-- No micro-step writes the surroundings (R29, R40, R44, R170). -/
theorem microStep_surroundings {s t : State} (h : microStep s = .next t) : t.surroundings = s.surroundings := by
  by_cases hp : ∃ pin n st, s.pc = .setup pin n st
  · obtain ⟨pin, n, st, hp⟩ := hp
    exact surroundings_of_setupKept (microStep_setupKept h hp)
  · push Not at hp
    exact surroundings_of_cleanupKept (microStep_cleanupKept h hp)

/-! ## What each agent writes -/

/-- What an agent other than the sequencer may write: never the command in progress, the framebuffer, the region's
bytes, or what is held (R14, R75). -/
abbrev AgentFrame (s t : State) : Prop :=
  t = { s with
    fault := t.fault, cm := t.cm, clo := t.clo, dma := t.dma, fifo := t.fifo, clk := t.clk, out := t.out,
    exchange := t.exchange, termPending := t.termPending, input := t.input, answers := t.answers,
    hostActs := t.hostActs, draws := t.draws }

theorem dmaStep_frame {s t : State} (h : dmaStep s = .next t) :
    t = { s with fifo := t.fifo, dma := t.dma, fault := t.fault } := by
  obtain rfl | ⟨w, -, -, -, -, -, rfl⟩ | ⟨-, rfl⟩ | ⟨-, -, rfl⟩ | ⟨-, -, rfl⟩ := dmaStep_cases h <;> rfl

/-- The agents other than the sequencer and the channel always step, and touch neither the channel nor the model fault. -/
theorem agentStep_around {a : Agent} (s : State) (ha : a ≠ .seq) (ha' : a ≠ .dma) :
    ∃ t, agentStep a s = .next t ∧ t = { s with
      cm := t.cm, clo := t.clo, fifo := t.fifo, clk := t.clk, out := t.out, exchange := t.exchange,
      termPending := t.termPending, input := t.input, answers := t.answers, hostActs := t.hostActs,
      draws := t.draws } := by
  cases a with
  | seq => exact absurd rfl ha
  | dma => exact absurd rfl ha'
  | pwm => exact ⟨_, rfl, by obtain ⟨-, h⟩ | ⟨-, rest, m, -, -, h⟩ := pwmStep_cases s <;> rw [h]⟩
  | clk => exact ⟨_, rfl, by obtain ⟨-, h⟩ | ⟨-, h⟩ := clkStep_cases s <;> rw [h]⟩
  | timer => exact ⟨_, rfl, rfl⟩
  | host => exact ⟨_, rfl, by obtain ⟨acts, n, input, term, h, -, -⟩ := hostStep_cases s; rw [h]⟩
  | platform => exact ⟨_, rfl, by obtain ⟨-, h⟩ | ⟨r, a, as, n, -, h⟩ := platformStep_cases s <;> rw [h]⟩

theorem agentStep_frame {a : Agent} {s t : State} (ha : a ≠ .seq) (h : agentStep a s = .next t) : AgentFrame s t := by
  by_cases ha' : a = .dma
  · subst ha'
    rw [dmaStep_frame h]
  · obtain ⟨u, hu, hframe⟩ := agentStep_around s ha ha'
    rw [hu] at h
    cases h
    rw [hframe]

/-- Settles O52: by the agent, each by the lemma that says what its step can do. -/
theorem agentsOwnTheirState : Obligations.AgentsOwnTheirState := by
  intro a s t h
  cases a with
  | seq =>
    have kept := microStep_surroundings h
    simp only [State.surroundings, Prod.mk.injEq] at kept
    simp [kept]
  | dma =>
    have frame := dmaStep_frame h
    have kept : t.surroundings = s.surroundings ∧ t.exchange = s.exchange ∧ t.mem = s.mem ∧ t.pc = s.pc
        ∧ t.plat = s.plat := by rw [frame]; exact ⟨rfl, rfl, rfl, rfl, rfl⟩
    simp only [State.surroundings, Prod.mk.injEq] at kept
    simp [kept, ← frame]
  | pwm =>
    cases h
    obtain ⟨-, h⟩ | ⟨-, rest, m, -, -, h⟩ := pwmStep_cases s <;> simp [h]
  | clk =>
    cases h
    obtain ⟨he, h⟩ | ⟨he, h⟩ := clkStep_cases s <;> simp [h, he]
  | timer =>
    cases h
    have succ : s.clo + 1 = BitVec.ofNat 32 (s.clo.toNat + 1) := BitVec.eq_of_toNat_eq (by simp)
    simpa [timerStep] using succ
  | host =>
    cases h
    obtain ⟨acts, n, input, term, h, hterm, hinput⟩ := hostStep_cases s
    simpa [h] using ⟨hterm, hinput⟩
  | platform =>
    cases h
    obtain ⟨hx, h⟩ | ⟨r, a, as, n, hx, h⟩ := platformStep_cases s <;> simp [h, hx]

/-! ## The FIFO and the channel -/

/-- The parameter checks, one by one (R9, R10, R70). -/
theorem configOk_iff (c : Config) : configOk c = true ↔
    1 ≤ c.fSrcHz ∧ 1 ≤ c.divMax ∧ clkDivOk c = true ∧ 1 ≤ c.busyTimeoutUs ∧ 1 ≤ c.pageSize ∧ c.pageSize % 32 = 0
      ∧ 1 ≤ c.fifoDepth ∧ 1 ≤ c.dreqThreshold ∧ c.dreqThreshold ≤ c.fifoDepth ∧ 1 ≤ c.tResetNs
      ∧ (lookupPin c 18).isSome = true ∧ 4 * largestCount c < 2 ^ 32 ∧ regionSize c (largestCount c) ≤ 2 ^ 32
      ∧ layoutOk c = true := by
  simp only [configOk, List.all_cons, List.all_nil, id, Bool.and_eq_true, decide_eq_true_eq, and_true]

@[simp] theorem Pwm.channel_setChannel_same (p : Pwm) (c : Channel) (x : PwmChannel) :
    (p.setChannel c x).channel c = x := by
  cases c <;> rfl

theorem Pwm.channel_setChannel_other {c c' : Channel} (h : c' ≠ c) (p : Pwm) (x : PwmChannel) :
    (p.setChannel c x).channel c' = p.channel c' := by
  cases c with
  | zero => cases c' with
    | zero => exact absurd rfl h
    | one => rfl
  | one => cases c' with
    | zero => rfl
    | one => exact absurd rfl h

@[simp] theorem Pwm.setChannel_dmacEnab (p : Pwm) (c : Channel) (x : PwmChannel) :
    (p.setChannel c x).dmacEnab = p.dmacEnab := by
  cases c <;> rfl

@[simp] theorem Pwm.setChannel_dmacDreq (p : Pwm) (c : Channel) (x : PwmChannel) :
    (p.setChannel c x).dmacDreq = p.dmacDreq := by
  cases c <;> rfl

@[simp] theorem Pwm.setChannel_dmacPanic (p : Pwm) (c : Channel) (x : PwmChannel) :
    (p.setChannel c x).dmacPanic = p.dmacPanic := by
  cases c <;> rfl

theorem FifoBounded.setChannel {s : State} (h : FifoBounded s) (c : Channel) (x : PwmChannel) :
    FifoBounded { s with pwm := s.pwm.setChannel c x } := by
  simpa [FifoBounded] using h

theorem FifoBounded.mapClose {s : State} (h : FifoBounded s) : FifoBounded (mapClose s) := by
  obtain ⟨-, he⟩ | ⟨-, he⟩ := mapClose_cases s <;> rw [he] <;> exact h

/-- Only K9 writes DMAC, with a threshold that the FIFO's depth allows (R10, R183). -/
theorem configureStep_fifoBounded (e : PinEntry) (k : ConfigureStep) {s : State} (hc : configOk s.cfg = true)
    (h : FifoBounded s) : (configureStep e k s).Within FifoBounded := by
  obtain ⟨-, -, -, -, -, -, -, -, hdreq, -⟩ := (configOk_iff s.cfg).mp hc
  unfold configureStep
  cases k with
  | k1 => exact Proc.within_regWrite h h
  | k2 => exact Proc.within_regWrite h (h.setChannel _ _)
  | k8 => exact Proc.within_regWrite h (h.setChannel _ _)
  | k9 => exact Proc.within_regWrite h ⟨h.1, fun _ => hdreq⟩
  | k10 =>
    refine Proc.meets_after fun s' hs' => ?_
    obtain ⟨-, ⟨-, rfl⟩ | ⟨-, rfl⟩⟩ := regWrite_cases hs'
    · exact h.setChannel _ _
    · exact h
  | k3 | k5 | k6 =>
    refine Proc.meets_after fun s' hs' => ?_
    obtain ⟨-, -, ⟨-, rfl⟩ | ⟨-, rfl⟩⟩ := cmWrite_cases hs' <;> exact h
  | k4 | k7 => exact Proc.within_read h fun _ => h
  | k4Busy | k4Time | k7Wait => exact Proc.within_read h fun _ => by split <;> exact h

theorem setupStep_fifoBounded (pin n : Int) (st : SetupStep) {s : State} (hc : configOk s.cfg = true)
    (h : FifoBounded s) : (setupStep pin n st s).Within FifoBounded := by
  cases st with
  | s1 | s2 | s3 e => simp only [setupStep]; split <;> exact h
  | s4 e m => exact Proc.within_call ((mapStep_frame m s).mono fun t ht => by rw [ht]; exact h) fun _ h => h
  | s5 e k => exact Proc.within_callUndo (configureStep_fifoBounded e k hc h) (fun _ => FifoBounded.mapClose) fun _ h => h
  | s6 e a =>
    exact Proc.within_callUndo ((allocateStep_frame _ a s).mono fun t ht => by rw [ht]; exact h)
      (fun _ => FifoBounded.mapClose) fun _ h => h
  | s7 e => exact h

theorem FifoBounded.congr {s t : State} (hk : t.cleanupKept = s.cleanupKept) (h : FifoBounded s) : FifoBounded t := by
  simp only [State.cleanupKept, State.hardware, State.timing, Prod.mk.injEq] at hk
  obtain ⟨⟨⟨hcfg, -⟩, -, -, -, -, -, hpwm⟩, hfifo, -⟩ := hk
  unfold FifoBounded
  rw [hcfg, hpwm, hfifo]
  exact h

theorem microStep_fifoBounded {s t : State} (hc : configOk s.cfg = true) (hm : microStep s = .next t)
    (h : FifoBounded s) : FifoBounded t := by
  by_cases hp : ∃ pin n st, s.pc = .setup pin n st
  · obtain ⟨pin, n, st, hp⟩ := hp
    simp only [microStep, hp] at hm
    exact resolve_within hm (setupStep_fifoBounded pin n st hc h) (fun _ _ h => h) (fun _ h => h) fun _ _ _ h => h
  · push Not at hp
    exact h.congr (microStep_cleanupKept hm hp)

/-- The DMA agent adds a word only where DMAC asks, and DMAC asks for no more than the FIFO holds (R183). -/
theorem agentStep_fifoBounded (a : Agent) (s t : State) (hc : configOk s.cfg = true) (ha : agentStep a s = .next t)
    (h : FifoBounded s) : FifoBounded t := by
  cases a with
  | seq => exact microStep_fifoBounded hc ha h
  | dma =>
    obtain rfl | ⟨w, -, -, hd, -, -, rfl⟩ | ⟨-, rfl⟩ | ⟨-, -, rfl⟩ | ⟨-, -, rfl⟩ := dmaStep_cases ha
    case inr.inl =>
      simp only [flagDreq, Bool.and_eq_true, decide_eq_true_eq] at hd
      have hle := h.2 hd.1
      exact ⟨by rw [List.length_append, List.length_singleton]; dsimp only; omega, h.2⟩
    all_goals exact h
  | pwm =>
    cases ha
    obtain ⟨-, he⟩ | ⟨-, rest, m, hrest, -, he⟩ := pwmStep_cases s <;> rw [he]
    · exact h
    · exact ⟨hrest.trans h.1, h.2⟩
  | clk => cases ha; obtain ⟨-, he⟩ | ⟨-, he⟩ := clkStep_cases s <;> rw [he] <;> exact h
  | timer => cases ha; exact h
  | host => cases ha; obtain ⟨acts, n, input, term, he, -, -⟩ := hostStep_cases s; rw [he]; exact h
  | platform => cases ha; obtain ⟨-, he⟩ | ⟨r, a, as, n, -, he⟩ := platformStep_cases s <;> rw [he] <;> exact h

/-! ## SEND's micro-steps in the commands that perform it -/

/-- Where a micro-step of SEND is in progress (R221, R224, R226). -/
theorem sendPlace_cases {pc : Pc} {e : SendStep} (h : sendPlace pc = some e) :
    pc = .send e ∨ pc = .clearAll (.send e) ∨ pc = .cleanup (.c1 (.send e)) ∨ pc = .terminate (.c1 (.send e)) := by
  unfold sendPlace at h
  split at h <;> cases h
  · exact .inl rfl
  · exact .inr (.inl rfl)
  · exact .inr (.inr (.inl rfl))
  · exact .inr (.inr (.inr rfl))

/-- In each command that performs SEND, its micro-steps go on at SEND's next label, and its end leads to a place outside
SEND and touches neither the channel nor the model fault (R221, R224, R226). -/
theorem microStep_send {s : State} {e : SendStep} (h : sendPlace s.pc = some e) :
    ∃ (wrap : SendStep → Pc) (finish : State → State), microStep s = resolve wrap finish (sendStep e s)
      ∧ (∀ l, sendPlace (wrap l) = some l)
      ∧ ∀ u, sendPlace (finish u).pc = none
        ∧ ((finish u).cfg, (finish u).dma, (finish u).fault) = (u.cfg, u.dma, u.fault) := by
  obtain hp | hp | hp | hp := sendPlace_cases h
  · exact ⟨.send, endCommand [], by simp only [microStep, hp], fun _ => rfl, fun _ => ⟨rfl, rfl⟩⟩
  · refine ⟨fun l => .clearAll (.send l), endCommand [], ?_, fun _ => rfl, fun _ => ⟨rfl, rfl⟩⟩
    simp only [microStep, hp, clearStep]
    cases sendStep e s <;> rfl
  · refine ⟨fun l => .cleanup (.c1 (.send l)), State.setPc (.cleanup (.c2 (.l1 .w1))), ?_, fun _ => rfl,
      fun _ => ⟨rfl, rfl⟩⟩
    simp only [microStep, hp, cleanupStep, clearStep]
    cases sendStep e s <;> rfl
  · refine ⟨fun l => .terminate (.c1 (.send l)), State.setPc (.terminate (.c2 (.l1 .w1))), ?_, fun _ => rfl,
      fun _ => ⟨rfl, rfl⟩⟩
    simp only [microStep, hp, cleanupStep, clearStep]
    cases sendStep e s <;> rfl

/-- WAIT_IDLE only looks at the channel (R181). -/
theorem waitStep_dma (w : WaitStep) (s : State) :
    (waitStep w s).Within (fun t => (t.cfg, t.dma) = (s.cfg, s.dma)) := by
  refine (waitStep_meets w s).mono ?_ ?_ fun _ _ _ h => h.elim
  · rintro l t (⟨-, rfl | rfl⟩ | ⟨-, -, -, rfl⟩) <;> rfl
  · rintro t ⟨-, -, rfl⟩
    rfl

theorem releaseStep_dma (l : ReleaseStep) (s : State) :
    (releaseStep l s).Within (fun t => (t.cfg, t.dma) = (s.cfg, s.dma)) := by
  unfold releaseStep
  split
  · cases l with
    | l1 w =>
      dsimp only
      split
      · exact Proc.within_call (waitStep_dma w s) fun _ h => h
      · rfl
    | l2 | l3 | l4 | l5 => rfl
  · rfl

theorem cleanupStep_dma {c : CleanupStep} (hc : ∀ e, c ≠ .c1 (.send e)) (s : State) :
    (cleanupStep c s).Within (fun t => (t.cfg, t.dma) = (s.cfg, s.dma)) := by
  cases c with
  | c1 a =>
    cases a with
    | fill => rfl
    | send e => exact absurd rfl (hc e)
  | c2 l => exact Proc.within_call (releaseStep_dma l s) fun _ h => h
  | c3 => exact channel_of_setupKept (mapClose_setupKept s)
  | c4 => rfl

/-- Outside SEND no micro-step touches the channel (R178, R181). -/
theorem microStep_dma {s t : State} (hp : sendPlace s.pc = none) (h : microStep s = .next t) :
    (t.cfg, t.dma) = (s.cfg, s.dma) := by
  have ended {c : CleanupStep} {wrap : CleanupStep → Pc} {finish : State → State}
      (h : resolve wrap finish (cleanupStep c s) = .next t) (hc : ∀ e, c ≠ .c1 (.send e))
      (hf : ∀ u, ((finish u).cfg, (finish u).dma) = (u.cfg, u.dma)) : (t.cfg, t.dma) = (s.cfg, s.dma) :=
    resolve_within h (cleanupStep_dma hc s) (fun _ _ h => h) (fun u h => (hf u).trans h) fun _ _ _ h => h
  cases hpc : s.pc with
  | idle => simp only [microStep, hpc] at h; cases h; rfl
  | setup pin n st => exact channel_of_setupKept (microStep_setupKept h hpc)
  | send e => rw [hpc] at hp; cases hp
  | clearAll c =>
    cases c with
    | fill => simp only [microStep, hpc] at h; cases h; rfl
    | send e => rw [hpc] at hp; cases hp
  | cleanup c =>
    simp only [microStep, hpc] at h
    exact ended h (fun e he => by rw [hpc, he] at hp; cases hp) fun _ => rfl
  | terminate c =>
    simp only [microStep, hpc] at h
    exact ended h (fun e he => by rw [hpc, he] at hp; cases hp) fun _ => rfl

/-! ## A running transfer -/

theorem TransferSound.congr {s t : State} (hk : (t.cfg, t.dma) = (s.cfg, s.dma)) (h : TransferSound s) :
    TransferSound t := by
  obtain ⟨hcfg, hdma⟩ := Prod.mk.inj hk
  unfold TransferSound transferLength
  rw [hcfg, hdma]
  exact h

theorem TransferSound.of_stopped {s : State} (h : s.dma.phase = .stopped) : TransferSound s := by
  intro hr
  rw [h] at hr
  cases hr

theorem csWrite_transferSound {p : Nat} {s s' : State} (h : TransferSound s) (hw : csWrite p s = .ok s') :
    TransferSound s' := by
  obtain ⟨-, ⟨-, rfl⟩ | ⟨-, hst⟩⟩ := csWrite_cases hw
  · exact h
  · obtain ⟨-, rfl⟩ | ⟨hp, rfl⟩ | ⟨cb, -, hcb, rfl⟩ | ⟨cb, hp, -, rfl⟩ := dmaStart_cases hst
    · exact h
    · exact .of_stopped hp
    · exact fun _ => ⟨hcb, Nat.zero_le _⟩
    · exact .of_stopped hp

theorem transmitStep_transferSound (x : TransmitStep) {s : State} (h : TransferSound s) :
    (transmitStep x s).Within TransferSound := by
  have store {off n : Nat} {v : Word} {l : TransmitStep} :
      (Proc.after (memWrite off n v s) (.goto l)).Within TransferSound :=
    Proc.meets_after fun s' hs' => by
      obtain ⟨r, -, -, ⟨-, rfl⟩ | ⟨-, -, -, rfl⟩ | ⟨-, -, -, rfl⟩⟩ := memWrite_cases hs' <;> exact h
  cases x with
  | x1 | x2 => simp only [transmitStep]; split <;> exact h
  | x3 i =>
    simp only [transmitStep]
    split
    · exact h
    · exact store
  | x4 j =>
    simp only [transmitStep]
    split
    · trivial
    · split
      · exact h
      · exact store
  | x5 => exact Proc.within_regWrite h h
  | x6 =>
    simp only [transmitStep]
    split
    · trivial
    · exact Proc.within_regWrite h h
  | x7 =>
    refine Proc.meets_after fun s' hs' => ?_
    have started : TransferSound s' := csWrite_transferSound h hs'
    exact started

theorem sendStep_transferSound (e : SendStep) {s : State} (h : TransferSound s) :
    (sendStep e s).Within TransferSound := by
  cases e with
  | e1 => exact h
  | e2 w | e4 w => exact Proc.within_call ((waitStep_dma w s).mono fun _ hk => h.congr hk) fun _ h => h
  | e3 x => exact Proc.within_call (transmitStep_transferSound x h) fun _ h => h

theorem microStep_transferSound {s t : State} (hm : microStep s = .next t) (h : TransferSound s) : TransferSound t := by
  cases hp : sendPlace s.pc with
  | none => exact h.congr (microStep_dma hp hm)
  | some e =>
    obtain ⟨wrap, finish, hstep, -, hfinish⟩ := microStep_send hp
    rw [hstep] at hm
    refine resolve_within hm (sendStep_transferSound e h) (fun _ _ h => h) (fun u hu => ?_) fun _ _ _ h => h
    obtain ⟨-, hkept⟩ := hfinish u
    obtain ⟨hcfg, hdma, -⟩ := by simpa only [Prod.mk.injEq] using hkept
    exact hu.congr (by rw [hcfg, hdma])

/-- MOVE counts up to the transfer's length, and END stops the channel (R184). -/
theorem agentStep_transferSound (a : Agent) (s t : State) (ha : agentStep a s = .next t) (h : TransferSound s) :
    TransferSound t := by
  by_cases hseq : a = .seq
  · subst hseq
    exact microStep_transferSound ha h
  · by_cases hdma : a = .dma
    · subst hdma
      obtain rfl | ⟨w, hr, hn, -, -, -, rfl⟩ | ⟨-, rfl⟩ | ⟨-, -, rfl⟩ | ⟨-, -, rfl⟩ := dmaStep_cases ha
      · exact h
      · exact fun hp => ⟨(h hp).1, hn⟩
      · exact h
      · exact h
      · exact .of_stopped rfl
    · obtain ⟨-, -, -, -, -, -, -, -, hkept, -⟩ := agentsOwnTheirState a s t ha
      have hframe := agentStep_frame hseq ha
      exact h.congr (by rw [hkept hdma hseq, hframe])

/-- Settles O58: each of the two is kept by drawing, by the idle sequencer and by every agent. -/
theorem fifoAndTransferStayBounded : Obligations.FifoAndTransferStayBounded := by
  refine ⟨fun s t hs h => ?_, fun s t hs h => ?_⟩
  · refine step_keeps (fun _ _ _ h => h) (fun s t _ hi hs => ?_) agentStep_fifoBounded h hs
    cases hi <;> exact hs
  · refine step_keeps (fun _ _ _ h => h) (fun s t _ hi hs => ?_) (fun a s t _ => agentStep_transferSound a s t) h hs
    cases hi <;> exact hs

/-! ## What is held -/

theorem heldMatch_of_holdsAll {s : State} (hp : s.pc = .idle) (h : HoldsAll s) : HeldMatch s := by
  unfold HeldMatch
  rw [hp, h.1]
  exact h

theorem heldMatch_of_holdsNothing {s : State} (hp : s.pc = .idle) (hl : s.life ≠ .ready) (h : HoldsNothing s)
    (hs : platShape s.plat = emptyShape) : HeldMatch s := by
  unfold HeldMatch
  rw [hp]
  cases hlife : s.life with
  | ready => exact absurd hlife hl
  | unconfigured | halted => exact ⟨h, hs⟩

/-- What an Unconfigured block holds is what SETUP holds before it has acquired anything. -/
theorem SetupHolds.holdsNothing {s : State} (h : SetupHolds s false emptyShape) :
    s.life = .unconfigured ∧ HoldsNothing s ∧ platShape s.plat = emptyShape := by
  obtain ⟨hl, hm, hr, hc, hn, hf, hs⟩ := h
  exact ⟨hl, ⟨hm, hr, hc, hn, hf⟩, hs⟩

theorem SetupHolds.heldMatch {s : State} (hp : s.pc = .idle) (h : SetupHolds s false emptyShape) : HeldMatch s := by
  obtain ⟨hl, hn, hs⟩ := h.holdsNothing
  exact heldMatch_of_holdsNothing hp (by rw [hl]; decide) hn hs

section Ends
variable {s : State} (st : Status) (d : Detail) (payload : List Byte)

theorem HoldsAll.raised (h : HoldsAll s) : HeldMatch (raiseError st d s) :=
  heldMatch_of_holdsAll (s := raiseError st d s) rfl h

theorem HoldsAll.ended (h : HoldsAll s) : HeldMatch (endCommand payload s) :=
  heldMatch_of_holdsAll (s := endCommand payload s) rfl h

theorem SetupHolds.raised (h : SetupHolds s false emptyShape) : HeldMatch (raiseError st d s) :=
  SetupHolds.heldMatch (s := raiseError st d s) rfl h

theorem SetupHolds.ended (h : SetupHolds s false emptyShape) : HeldMatch (endCommand payload s) :=
  SetupHolds.heldMatch (s := endCommand payload s) rfl h

end Ends

theorem SetupHolds.setPlat {s : State} {m : Bool} {shape shape' : Bool × List Block × Bool × Bool × Bool × Bool}
    (h : SetupHolds s m shape) {p : Platform} (hp : platShape p = shape') : SetupHolds (s.setPlat p) m shape' := by
  obtain ⟨hl, hm, hr, hc, hn, hf, -⟩ := h
  exact ⟨hl, hm, hr, hc, hn, hf, hp⟩

theorem SetupHolds.shape {s : State} {m : Bool} {shape : Bool × List Block × Bool × Bool × Bool × Bool}
    (h : SetupHolds s m shape) : platShape s.plat = shape := by
  obtain ⟨-, -, -, -, -, -, hs⟩ := h
  exact hs

theorem platShape_window {p : Platform} {d : Bool} {bs : List Block} {rest : Bool × Bool × Bool × Bool}
    (h : platShape p = (d, bs, rest)) (x : Bool) (ys : List Block) :
    platShape { p with memDevice := x, blocks := ys } = (x, ys, rest) := by
  simp only [platShape, Prod.mk.injEq] at h ⊢
  obtain ⟨-, -, hrest⟩ := h
  exact ⟨trivial, trivial, hrest⟩

/-- Giving the window back leaves what the allocator holds (R172, R173). -/
theorem SetupHolds.dropWindow {s : State} {m d : Bool} {bs : List Block} {rest : Bool × Bool × Bool × Bool}
    (h : SetupHolds s m (d, bs, rest)) : SetupHolds (dropWindow s) m (false, [], rest) :=
  h.setPlat (platShape_window h.shape false [])

theorem SetupHolds.mapClose {s : State} {d : Bool} {bs : List Block} {rest : Bool × Bool × Bool × Bool}
    (h : SetupHolds s true (d, bs, rest)) : SetupHolds (mapClose s) false (false, [], rest) := by
  obtain ⟨hl, hm, hr, hc, hn, hf, hs⟩ := h.dropWindow
  change s.mapped = true at hm
  unfold Sys2Proof.Machine.mapClose
  rw [if_pos hm]
  exact ⟨hl, rfl, hr, hc, hn, hf, hs⟩

/-! ### SETUP -/

/-- What of PLATFORM is held at each micro-step of MAP_OPEN (R172). -/
def mapShape : MapStep → Bool × List Block × Bool × Bool × Bool × Bool
  | .m1 => emptyShape
  | .m2 b => (true, blocksBefore b, false, false, false, false)
  | .m3 => (true, allBlocks, false, false, false, false)

theorem setupResources_s4 (n : Int) (s : State) (e : PinEntry) (m : MapStep) :
    setupResources n s (.s4 e m) ↔ SetupHolds s false (mapShape m) ∧ ledCountOk s.cfg n = true := by
  cases m <;> rfl

theorem platShape_mapBlock {p : Platform} {d : Bool} {bs : List Block} {rest : Bool × Bool × Bool × Bool}
    (h : platShape p = (d, bs, rest)) (b : Block) :
    platShape { p with blocks := p.blocks ++ [b] } = (d, bs ++ [b], rest) := by
  simp only [platShape, Prod.mk.injEq] at h ⊢
  simp only [h, and_self]

/-- MAP_OPEN maps the blocks one after another (R172). -/
theorem mapShape_next (b : Block) : (true, blocksBefore b ++ [b], false, false, false, false) =
    mapShape (match nextBlock b with
      | some b' => .m2 b'
      | none => .m3) := by
  cases b <;> rfl

/-- MAP_OPEN acquires the window block by block, and gives all of it back where it fails (R172). -/
theorem mapStep_holds (m : MapStep) {s : State} (h : SetupHolds s false (mapShape m)) :
    (mapStep m s).Meets (fun l t => SetupHolds t false (mapShape l))
      (fun t => SetupHolds t true (true, allBlocks, false, false, false, false))
      (fun _ _ t => SetupHolds t false emptyShape) := by
  obtain ⟨hl, hm, hr, hc, hn, hf, hs⟩ := id h
  unfold mapStep
  cases m with
  | m1 =>
    refine Proc.meets_ask (fun _ => h) (fun _ _ => h) fun a _ => ?_
    have answered : SetupHolds (s.setExchange .quiet) false emptyShape := h
    cases a.ok
    · exact answered
    · exact answered.setPlat (platShape_window answered.shape true [])
  | m2 b =>
    refine Proc.meets_ask (fun _ => h) (fun _ _ => h) fun a _ => ?_
    have answered : SetupHolds (s.setExchange .quiet) false (mapShape (.m2 b)) := h
    cases a.ok
    · exact answered.dropWindow
    · exact answered.setPlat ((platShape_mapBlock answered.shape b).trans (mapShape_next b))
  | m3 => exact ⟨hl, rfl, hr, hc, hn, hf, hs⟩

/-- A lock's base is on a page, and the region ends at or below 2^32 (R65, R66, log 27). -/
theorem lockBase_fits {c : Config} (hc : 1 ≤ c.pageSize) (elements v : Nat) :
    BaseFits c elements (lockBase c (regionSize c elements) v) := by
  have pages : 1 ≤ regionSize c elements := by
    unfold regionSize ceilDiv
    refine Nat.mul_pos (Nat.div_pos ?_ hc) hc
    simp only [cbBytes]
    omega
  have rounded := Nat.div_mul_le_self (min v (2 ^ 32 - regionSize c elements)) c.pageSize
  have below : (lockBase c (regionSize c elements) v).toNat
      = min v (2 ^ 32 - regionSize c elements) / c.pageSize * c.pageSize := by
    unfold lockBase
    rw [BitVec.toNat_ofNat]
    exact Nat.mod_eq_of_lt (by omega)
  unfold BaseFits
  rw [below]
  exact ⟨Nat.mul_mod_left _ _, rounded.trans (min_le_right _ _)⟩


section Shapes
variable {p : Platform} {d ch al lo mp : Bool} {bs : List Block}

theorem platShape_channel {rest : Bool × Bool × Bool} (h : platShape p = (d, bs, ch, rest)) (x : Bool) :
    platShape { p with channel := x } = (d, bs, x, rest) := by
  simp only [platShape, Prod.mk.injEq] at h ⊢
  simp only [h, and_self]

theorem platShape_alloc {rest : Bool × Bool} (h : platShape p = (d, bs, ch, al, rest)) (x : Option Allocation) :
    platShape { p with alloc := x } = (d, bs, ch, x.isSome, rest) := by
  simp only [platShape, Prod.mk.injEq] at h ⊢
  simp only [h, and_self]

theorem platShape_locked (h : platShape p = (d, bs, ch, al, lo, mp)) (x : Option Word) :
    platShape { p with locked := x } = (d, bs, ch, al, x.isSome, mp) := by
  simp only [platShape, Prod.mk.injEq] at h ⊢
  simp only [h, and_self]

theorem platShape_mapping (h : platShape p = (d, bs, ch, al, lo, mp)) (x : Option Mapping) :
    platShape { p with mapping := x } = (d, bs, ch, al, lo, x.isSome) := by
  simp only [platShape, Prod.mk.injEq] at h ⊢
  simp only [h, and_self]

end Shapes

theorem SetupHolds.platClose {s : State} {m d ch : Bool} {bs : List Block} {rest : Bool × Bool × Bool}
    (h : SetupHolds s m (d, bs, ch, rest)) : SetupHolds (platClose s) m (d, bs, false, rest) :=
  h.setPlat (platShape_channel h.shape false)

theorem SetupHolds.platFree {s : State} {m d ch al : Bool} {bs : List Block} {rest : Bool × Bool}
    (h : SetupHolds s m (d, bs, ch, al, rest)) : SetupHolds (platFree s) m (d, bs, ch, false, rest) :=
  h.setPlat (platShape_alloc h.shape none)

theorem SetupHolds.platUnlock {s : State} {m d ch al lo mp : Bool} {bs : List Block}
    (h : SetupHolds s m (d, bs, ch, al, lo, mp)) : SetupHolds (platUnlock s) m (d, bs, ch, al, false, mp) :=
  h.setPlat (platShape_locked h.shape none)

/-- What of PLATFORM is held at each micro-step of ALLOCATE (R171). -/
def allocateShape : AllocateStep → Bool × List Block × Bool × Bool × Bool × Bool
  | .a0 => (true, allBlocks, false, false, false, false)
  | .a1 => (true, allBlocks, false, false, false, false)
  | .a2 => (true, allBlocks, true, false, false, false)
  | .a3 _ => (true, allBlocks, true, true, false, false)
  | .a4 _ _ => (true, allBlocks, true, true, true, false)
  | .a5 _ _ _ => fullShape

/-- The bus base that a micro-step of ALLOCATE carries is one at which the region fits (R65, R66). -/
def allocateBase (c : Config) (elements : Nat) : AllocateStep → Prop
  | .a4 _ b => BaseFits c elements b
  | .a5 _ b _ => BaseFits c elements b
  | _ => True

theorem setupResources_s6 (n : Int) (s : State) (e : PinEntry) (a : AllocateStep) :
    setupResources n s (.s6 e a) ↔ SetupHolds s true (allocateShape a) ∧ ledCountOk s.cfg n = true
      ∧ allocateBase s.cfg (capacityFor n.toNat s.resetGapLength) a := by
  cases a <;> simp [setupResources, allocateShape, allocateBase]

/-- ALLOCATE acquires channel, allocation, lock and mapping in turn, and gives all of them back where it fails (R171). -/
theorem allocateStep_holds (a : AllocateStep) {s : State} {elements : Nat} (hc : 1 ≤ s.cfg.pageSize)
    (h : SetupHolds s true (allocateShape a)) (hb : allocateBase s.cfg elements a) :
    (allocateStep (regionSize s.cfg elements) a s).Meets
      (fun l t => SetupHolds t true (allocateShape l) ∧ allocateBase s.cfg elements l)
      (fun t => t.life = .unconfigured ∧ t.mapped = true ∧ platShape t.plat = fullShape
        ∧ ∃ r, t.region = some r ∧ r.size = regionSize s.cfg elements ∧ BaseFits s.cfg elements r.bbase)
      (fun _ _ t => SetupHolds t true (true, allBlocks, false, false, false, false)) := by
  obtain ⟨hl, hm, hr, -, -, -, hs⟩ := id h
  have answered : SetupHolds (s.setExchange .quiet) true (allocateShape a) := h
  have held := answered.shape
  unfold allocateStep
  cases a with
  | a0 => rw [hr]; exact ⟨h, trivial⟩
  | a1 =>
    refine Proc.meets_ask (fun _ => ⟨h, hb⟩) (fun _ _ => ⟨h, hb⟩) fun a _ => ?_
    cases a.ok
    · exact answered
    · exact ⟨answered.setPlat (platShape_channel held true), trivial⟩
  | a2 =>
    refine Proc.meets_ask (fun _ => ⟨h, hb⟩) (fun _ _ => ⟨h, hb⟩) fun a _ => ?_
    cases a.ok
    · exact answered.platClose
    · exact ⟨answered.setPlat (platShape_alloc held (some _)), trivial⟩
  | a3 hd =>
    refine Proc.meets_ask (fun _ => ⟨h, hb⟩) (fun _ _ => ⟨h, hb⟩) fun a _ => ?_
    cases a.ok
    · exact answered.platFree.platClose
    · exact ⟨answered.setPlat (platShape_locked held (some _)), lockBase_fits hc elements a.value⟩
  | a4 hd b =>
    refine Proc.meets_ask (fun _ => ⟨h, hb⟩) (fun _ _ => ⟨h, hb⟩) fun a _ => ?_
    cases a.ok
    · exact answered.platUnlock.platFree.platClose
    · exact ⟨answered.setPlat (platShape_mapping held (some _)), hb⟩
  | a5 hd b v => exact ⟨hl, hm, hs, _, rfl, rfl, hb⟩

/-- SETUP commits a region for its LED count, with everything held (R25, R212 S7). -/
theorem commitSetup_holdsAll {s : State} {pin n : Int} {e : PinEntry} (h : setupResources n s (.s7 e)) :
    HoldsAll (commitSetup pin n e s) := by
  obtain ⟨-, hm, hr, hn, hs⟩ := h
  simp only [ledCountOk, Bool.and_eq_true, decide_eq_true_eq] at hn
  refine ⟨rfl, hm, hr, ⟨?_, rfl, List.length_replicate⟩, hs⟩
  show n.toNat ≤ s.cfg.maxLeds
  omega

/-- SETUP holds at each micro-step what the step's place says, everything at its end, and nothing where it fails
(R212, R213). -/
theorem setupStep_resources (pin n : Int) (st : SetupStep) {s : State} (hc : 1 ≤ s.cfg.pageSize)
    (h : setupResources n s st) :
    (setupStep pin n st s).Meets (fun l t => setupResources n t l) HoldsAll
      (fun _ _ t => SetupHolds t false emptyShape) := by
  cases st with
  | s1 =>
    simp only [setupStep]
    split
    · next hn => exact ⟨h, hn⟩
    · exact h
  | s2 =>
    simp only [setupStep]
    split
    · exact h.1
    · exact h
  | s3 e =>
    simp only [setupStep]
    split
    · exact h.1
    · exact h
  | s4 e m =>
    rw [setupResources_s4] at h
    refine Proc.meets_call (((mapStep_holds m h.1).and (mapStep_frame m s)).mono ?_ ?_ fun _ _ _ ht => ht.1)
    · rintro l t ⟨ht, hf⟩
      rw [setupResources_s4]
      exact ⟨ht, by rw [hf]; exact h.2⟩
    · rintro t ⟨ht, hf⟩
      exact ⟨ht, by rw [hf]; exact h.2⟩
  | s5 e k =>
    have kept (t : State) (hf : ConfigureFrame s t) : setupResources n t (.s5 e k) := by rw [hf]; exact h
    refine Proc.meets_callUndo (Proc.Meets.mono (configureStep_frame e k s) (fun _ => kept) kept fun _ _ t hf => ?_)
    exact (kept t hf).1.mapClose
  | s6 e a =>
    rw [setupResources_s6] at h
    obtain ⟨hh, hn, hb⟩ := h
    have kept {t : State} (hf : AllocateFrame s t) : t.cfg = s.cfg ∧ t.resetGapLength = s.resetGapLength := by
      rw [hf]
      exact ⟨rfl, rfl⟩
    refine Proc.meets_callUndo (((allocateStep_holds a hc hh hb).and (allocateStep_frame _ a s)).mono ?_ ?_ ?_)
    · rintro l t ⟨⟨ht, htb⟩, hf⟩
      obtain ⟨hcfg, hgap⟩ := kept hf
      rw [setupResources_s6, hcfg, hgap]
      exact ⟨ht, hn, htb⟩
    · rintro t ⟨⟨hl, hm, hs, hr⟩, hf⟩
      obtain ⟨hcfg, hgap⟩ := kept hf
      refine ⟨hl, hm, ?_, ?_, hs⟩
      · unfold RegionFits
        rw [hcfg, hgap]
        exact hr
      · rw [hcfg]
        exact hn
    · rintro st d t ⟨ht, -⟩
      exact ht.mapClose
  | s7 e => exact commitSetup_holdsAll h

/-- No request stands at PLATFORM, or the micro-step makes one (R170). -/
def QuietAt (pc : Pc) (s : State) : Prop := s.exchange = .quiet ∨ asksPlatform pc = true

theorem quietAt_iff (pc : Pc) (s : State) : QuietAt pc s ↔ (asksPlatform pc = false → s.exchange = .quiet) := by
  unfold QuietAt
  cases asksPlatform pc <;> simp

theorem mapClose_quiet {s : State} (h : s.exchange = .quiet) : (mapClose s).exchange = .quiet :=
  (exchange_of_cleanupKept (cleanupKept_of_transferKept (mapClose_transferKept s))).trans h

/-- A request of SETUP stands at PLATFORM only at the micro-step that makes it (R170). -/
theorem setupStep_quiet (pin n : Int) (st : SetupStep) {s : State} (h : QuietAt (.setup pin n st) s) :
    (setupStep pin n st s).Meets (fun l t => QuietAt (.setup pin n l) t) (fun t => t.exchange = .quiet)
      (fun _ _ t => t.exchange = .quiet) := by
  have quiet (hp : asksPlatform (.setup pin n st) = false) : s.exchange = .quiet := (quietAt_iff _ _).mp h hp
  cases st with
  | s1 =>
    simp only [setupStep]
    split
    · exact .inl (quiet rfl)
    · exact quiet rfl
  | s2 =>
    simp only [setupStep]
    split
    · exact quiet rfl
    · exact .inl (quiet rfl)
  | s3 e =>
    simp only [setupStep]
    split
    · exact quiet rfl
    · exact .inl (quiet rfl)
  | s4 e m =>
    refine Proc.meets_call ?_
    unfold mapStep
    cases m with
    | m1 | m2 b =>
      refine Proc.meets_ask (fun _ => .inr rfl) (fun _ _ => .inr rfl) fun a _ => ?_
      cases a.ok
      · rfl
      · exact .inl rfl
    | m3 => exact .inl (quiet rfl)
  | s5 e k =>
    have kept (t : State) (hf : ConfigureFrame s t) : t.exchange = .quiet := by rw [hf]; exact quiet rfl
    exact Proc.meets_callUndo (Proc.Meets.mono (configureStep_frame e k s) (fun _ t hf => .inl (kept t hf))
      (fun t hf => .inl (kept t hf)) fun _ _ t hf => mapClose_quiet (kept t hf))
  | s6 e a =>
    refine Proc.meets_callUndo ?_
    unfold allocateStep
    cases a with
    | a0 =>
      dsimp only
      split
      · exact mapClose_quiet (quiet rfl)
      · exact .inl (quiet rfl)
    | a1 | a2 | a3 hd | a4 hd b =>
      refine Proc.meets_ask (fun _ => .inr rfl) (fun _ _ => .inr rfl) fun a _ => ?_
      cases a.ok
      · exact mapClose_quiet rfl
      · exact .inl rfl
    | a5 hd b v => exact .inl (quiet rfl)
  | s7 e => exact quiet rfl

/-! ### SEND, CLEAR_ALL and CLEANUP -/

theorem HoldsAll.same {s t : State} (hs : SameSetting s t) (h : HoldsAll s) : HoldsAll t := by
  unfold SameSetting at hs
  rw [hs]
  exact h

theorem clearStep_holdsAll (c : ClearStep) {s : State} (h : HoldsAll s) : (clearStep c s).Within HoldsAll := by
  cases c with
  | fill =>
    obtain ⟨hl, hm, hr, ⟨hn, hc, -⟩, hs⟩ := h
    exact ⟨hl, hm, hr, ⟨hn, hc, List.length_replicate⟩, hs⟩
  | send e => exact Proc.within_call (Proc.Within.mono (sendStep_same e s) fun _ hs => h.same hs) fun _ h => h

/-- RELEASE gives back the mapping, the lock, the allocation and the channel in turn (R188). -/
theorem releaseStep_resources (l : ReleaseStep) {s : State} (h : cleanupResources s (.c2 l)) :
    (releaseStep l s).Meets (fun l t => cleanupResources t (.c2 l)) (fun t => cleanupResources t .c3)
      (fun _ _ _ => False) := by
  cases l with
  | l1 w =>
    obtain ⟨-, hm, ⟨r, hr, -⟩, -⟩ : HoldsAll s := id h
    simp only [releaseStep, hr, Option.isSome_some, if_true, hm]
    exact Proc.meets_call ((waitStep_same w s).mono (fun _ _ hs => HoldsAll.same hs h) (fun _ hs => HoldsAll.same hs h)
      fun _ _ _ h => h)
  | l2 =>
    obtain ⟨hl, hm, ⟨r, hr, -⟩, -, hs⟩ := h
    simp only [releaseStep, hr, Option.isSome_some, if_true]
    exact ⟨hl, hm, by simp [platUnmap, hr], platShape_mapping hs none⟩
  | l3 =>
    obtain ⟨hl, hm, hr, hs⟩ := h
    simp only [releaseStep, hr, if_true]
    exact ⟨hl, hm, hr, platShape_locked hs none⟩
  | l4 =>
    obtain ⟨hl, hm, hr, hs⟩ := h
    simp only [releaseStep, hr, if_true]
    exact ⟨hl, hm, hr, platShape_alloc hs none⟩
  | l5 =>
    obtain ⟨hl, hm, hr, hs⟩ := h
    simp only [releaseStep, hr, if_true]
    exact ⟨hl, hm, rfl, rfl, platShape_channel hs false⟩

/-- CLEANUP holds at each micro-step what the step's place says, and nothing at its end (R188, R226). -/
theorem cleanupStep_resources (c : CleanupStep) {s : State} (h : cleanupResources s c) :
    (cleanupStep c s).Meets (fun l t => cleanupResources t l) (fun t => SetupHolds t false emptyShape)
      (fun _ _ t => HoldsAll t) := by
  cases c with
  | c1 a => exact Proc.meets_call ((clearStep_holdsAll a h).mono fun _ h => h)
  | c2 l => exact Proc.meets_call ((releaseStep_resources l h).mono (fun _ _ h => h) (fun _ h => h) fun _ _ _ h => h.elim)
  | c3 =>
    obtain ⟨hl, hm, hr, hc, hs⟩ := h
    obtain ⟨hf, -⟩ | ⟨-, he⟩ := mapClose_cases s
    · rw [hf] at hm
      cases hm
    · simp only [cleanupStep, he]
      exact ⟨hl, hr, hc, rfl, platShape_window hs false []⟩
  | c4 =>
    obtain ⟨hl, hr, hc, hm, hs⟩ := h
    exact ⟨rfl, hm, hr, hc, rfl, rfl, hs⟩

/-! ### The step -/

theorem microStep_heldMatch {s t : State} (hc : configOk s.cfg = true) (hm : microStep s = .next t) (h : HeldMatch s) :
    HeldMatch t := by
  obtain ⟨-, -, -, -, hpage, -⟩ := (configOk_iff s.cfg).mp hc
  have place := h
  unfold HeldMatch at place
  unfold microStep at hm
  cases hp : s.pc with
  | idle =>
    rw [hp] at hm
    cases hm
    exact h
  | setup pin n st =>
    rw [hp] at hm place
    exact resolve_meets hm ((setupStep_resources pin n st hpage place).mono (fun _ _ hu => hu)
      (fun _ hu => hu.ended []) fun st d _ hu => hu.raised st d)
  | send e =>
    rw [hp] at hm place
    have kept : (sendStep e s).Within HoldsAll := Proc.Within.mono (sendStep_same e s) fun _ hs => place.same hs
    exact resolve_meets hm (Proc.Meets.mono kept (fun _ _ hu => hu)
      (fun _ hu => hu.ended []) fun st d _ hu => hu.raised st d)
  | clearAll c =>
    rw [hp] at hm place
    exact resolve_meets hm (Proc.Meets.mono (clearStep_holdsAll c place) (fun _ _ hu => hu)
      (fun _ hu => hu.ended []) fun st d _ hu => hu.raised st d)
  | cleanup c =>
    rw [hp] at hm place
    exact resolve_meets hm ((cleanupStep_resources c place).mono (fun _ _ hu => hu)
      (fun _ hu => hu.ended []) fun st d _ hu => hu.raised st d)
  | terminate c =>
    rw [hp] at hm place
    refine resolve_meets hm ((cleanupStep_resources c place).mono (fun _ _ hu => hu) (fun u hu => ?_)
      fun st d _ hu => hu.raised st d)
    obtain ⟨-, hn, hs⟩ := hu.holdsNothing
    exact heldMatch_of_holdsNothing (s := endTermination u) rfl (by simp [endTermination]) hn hs

theorem microStep_quiet {s t : State} (hm : microStep s = .next t) (h : QuietAt s.pc s) : QuietAt t.pc t := by
  cases hp : s.pc with
  | setup pin n st =>
    rw [hp] at h
    simp only [microStep, hp] at hm
    exact resolve_meets (P := fun u => QuietAt u.pc u) hm
      ((setupStep_quiet pin n st h).mono (fun _ _ hu => hu) (fun _ => .inl) fun _ _ _ => .inl)
  | idle | send e | clearAll c | cleanup c | terminate c =>
    have kept := microStep_cleanupKept hm (fun _ _ _ he => by rw [hp] at he; cases he)
    have quiet : s.exchange = .quiet := (quietAt_iff _ _).mp h (by rw [hp]; rfl)
    exact .inl ((exchange_of_cleanupKept kept).trans quiet)

theorem ResourcesMatch.iff_quietAt (s : State) : ResourcesMatch s ↔ HeldMatch s ∧ QuietAt s.pc s := by
  rw [ResourcesMatch, quietAt_iff]

/-- No other agent than the sequencer touches what is held, and only PLATFORM the request (R14, R170). -/
theorem agentStep_resources (a : Agent) (s t : State) (hc : configOk s.cfg = true) (ha : agentStep a s = .next t)
    (h : ResourcesMatch s) : ResourcesMatch t := by
  rw [ResourcesMatch.iff_quietAt] at h ⊢
  obtain ⟨hh, hq⟩ := h
  by_cases hseq : a = .seq
  · subst hseq
    exact ⟨microStep_heldMatch hc ha hh, microStep_quiet ha hq⟩
  · have hframe := agentStep_frame hseq ha
    have hheld : HeldMatch t := by rw [hframe]; exact hh
    refine ⟨hheld, ?_⟩
    have hpc : t.pc = s.pc := by rw [hframe]
    by_cases hplat : a = .platform
    · subst hplat
      cases ha
      obtain ⟨-, he⟩ | ⟨r, answer, as, n, hx, -⟩ := platformStep_cases s
      · rw [he]
        exact hq
      · exact .inr (by rw [hpc]; exact hq.resolve_left fun hquiet => by rw [hx] at hquiet; cases hquiet)
    · obtain ⟨-, -, -, -, -, hkept, -⟩ := agentsOwnTheirState a s t ha
      unfold QuietAt
      rw [hpc, (hkept hplat).2 hseq]
      exact hq

theorem heldMatch_idle {s : State} (hp : s.pc = .idle) (h : HeldMatch s) :
    s.life = .ready ∧ HoldsAll s ∨ s.life ≠ .ready ∧ HoldsNothing s ∧ platShape s.plat = emptyShape := by
  unfold HeldMatch at h
  rw [hp] at h
  cases hl : s.life with
  | ready => rw [hl] at h; exact .inl ⟨rfl, h⟩
  | unconfigured | halted => rw [hl] at h; exact .inr ⟨by simp, h⟩

/-- The idle sequencer's changes keep what is held: the framebuffer keeps its length, only an Unconfigured block is
halted, and a procedure begins in the lifecycle state whose resources it needs (R211, R284). -/
theorem IdleChange.heldMatch {s t : State} (hp : s.pc = .idle) (hi : IdleChange s t) (h : HeldMatch s) :
    HeldMatch t := by
  obtain ⟨hl, hh⟩ | ⟨hl, hn, hs⟩ := heldMatch_idle hp h
  · cases hi with
    | answer input resp hfb =>
      obtain ⟨hlife, hm, hr, ⟨hn, hc, hlen⟩, hs⟩ := hh
      exact heldMatch_of_holdsAll hp ⟨hlife, hm, hr, ⟨hn, hc, hfb.trans hlen⟩, hs⟩
    | halt hu => rw [hl] at hu; cases hu
    | start hst => rw [hl] at hst; cases hst <;> exact hh
  · obtain ⟨hm, hr, hc, hled, hfb⟩ := id hn
    cases hi with
    | answer input resp hlen =>
      rw [hfb] at hlen
      exact heldMatch_of_holdsNothing hp hl ⟨hm, hr, hc, hled, List.eq_nil_of_length_eq_zero hlen⟩ hs
    | halt hu => exact heldMatch_of_holdsNothing hp (by simp) ⟨hm, hr, hc, hled, hfb⟩ hs
    | start hst =>
      cases hlife : s.life with
      | ready => exact absurd hlife hl
      | halted => rw [hlife] at hst; cases hst
      | unconfigured =>
        rw [hlife] at hst
        cases hst
        exact ⟨hlife, hm, hr, hc, hled, hfb, hs⟩

/-- The idle sequencer makes no request (R170). -/
theorem IdleChange.quiet {s t : State} (hp : s.pc = .idle) (hi : IdleChange s t) (h : QuietAt s.pc s) :
    QuietAt t.pc t := by
  have quiet : s.exchange = .quiet := (quietAt_iff _ _).mp h (by rw [hp]; rfl)
  cases hi <;> exact .inl quiet

/-- Settles O55: what is held and where a request stands are kept by the idle sequencer and by every agent. -/
theorem resourcesAlwaysMatch : Obligations.ResourcesAlwaysMatch := by
  intro s t hs h
  refine step_keeps (fun _ _ _ h => h) (fun s t hp hi hs => ?_) agentStep_resources h hs
  rw [ResourcesMatch.iff_quietAt] at hs ⊢
  exact ⟨hi.heldMatch hp hs.1, hi.quiet hp hs.2⟩

/-! ## The peripherals' configuration -/

/-- The timing registers hold the derivation, register by register (R24, R135). -/
theorem timingStored_iff (s : State) : TimingStored s ↔ ∃ tm, deriveTiming s.cfg = some tm ∧ s.div = tm.div
    ∧ s.range = BitVec.ofNat 32 tm.range ∧ s.markZero = BitVec.ofNat 8 tm.markZero
    ∧ s.markOne = BitVec.ofNat 8 tm.markOne ∧ s.resetGapLength = tm.resetGapLength := by
  refine exists_congr fun tm => and_congr_right fun _ => ⟨fun h => ?_, fun ⟨hd, hr, hz, ho, hg⟩ => ?_⟩
  · rw [h]
    exact ⟨rfl, rfl, rfl, rfl, rfl⟩
  · unfold storeTiming
    rw [← hd, ← hr, ← hz, ← ho, ← hg]

theorem TimingStored.congr {s t : State} (hk : t.timing = s.timing) (h : TimingStored s) : TimingStored t := by
  simp only [State.timing, Prod.mk.injEq] at hk
  obtain ⟨hcfg, hdiv, hrange, hzero, hone, hgap⟩ := hk
  rw [timingStored_iff] at h ⊢
  rw [hcfg, hdiv, hrange, hzero, hone, hgap]
  exact h

/-- What CONFIGURE has written depends on the timing, GPIO, the clock and the PWM's registers alone. -/
theorem ConfiguredUpTo.congr {n : Nat} {e : PinEntry} {s t : State} (ht : t.timing = s.timing)
    (hk : (t.gpio, t.cm, t.clk, t.pwm) = (s.gpio, s.cm, s.clk, s.pwm)) (h : ConfiguredUpTo n e s) :
    ConfiguredUpTo n e t := by
  simp only [State.timing, Prod.mk.injEq] at ht hk
  obtain ⟨hcfg, hdiv, hrange, -⟩ := ht
  obtain ⟨hgpio, hcm, hclk, hpwm⟩ := hk
  unfold ConfiguredUpTo ClockRuns DmacConfigured readFsel at h ⊢
  rw [hcfg, hdiv, hrange, hgpio, hcm, hclk, hpwm]
  exact h

/-- `t` keeps the timing, the pin and its channel, and whatever CONFIGURE has written in `s`. -/
structure ConfigurationKept (s t : State) : Prop where
  timing : t.timing = s.timing
  pin : t.pin = s.pin
  ch : t.ch = s.ch
  upTo : ∀ n e, ConfiguredUpTo n e s → ConfiguredUpTo n e t

theorem ConfigurationKept.of_hardware {s t : State} (hk : t.hardware = s.hardware) : ConfigurationKept s t := by
  simp only [State.hardware, Prod.mk.injEq] at hk
  obtain ⟨htiming, hpin, hch, hgpio, hcm, hclk, hpwm⟩ := hk
  exact ⟨htiming, hpin, hch, fun n e h => h.congr htiming (by rw [hgpio, hcm, hclk, hpwm])⟩

theorem ConfigurationKept.lookupPin {s t : State} (hk : ConfigurationKept s t) (pin : Int) :
    lookupPin t.cfg pin = lookupPin s.cfg pin :=
  congrArg (fun x => Sys2Proof.Machine.lookupPin x.1 pin) hk.timing

theorem HardwareReady.kept {s t : State} (hk : ConfigurationKept s t) (h : HardwareReady s) : HardwareReady t := by
  obtain ⟨e, he, hch, hst, hup⟩ := h
  exact ⟨e, by rw [hk.lookupPin, hk.pin]; exact he, hch.trans hk.ch.symm, hst.congr hk.timing, hk.upTo 11 e hup⟩

/-- What SETUP has found and configured at each of its micro-steps (R138, R212). -/
def SetupConfigured (pin : Int) (s : State) : SetupStep → Prop
  | .s1 => True
  | .s2 => True
  | .s3 e => lookupPin s.cfg pin = some e
  | .s4 e _ => lookupPin s.cfg pin = some e ∧ TimingStored s
  | .s5 e k => lookupPin s.cfg pin = some e ∧ TimingStored s ∧ ConfiguredUpTo (configureIndex k) e s
  | .s6 e _ => lookupPin s.cfg pin = some e ∧ FullyConfigured e s
  | .s7 e => lookupPin s.cfg pin = some e ∧ FullyConfigured e s

theorem hardwareMatches_setup {s : State} {pin n : Int} {st : SetupStep} (hp : s.pc = .setup pin n st) :
    HardwareMatches s ↔ s.life = .unconfigured ∧ SetupConfigured pin s st := by
  unfold HardwareMatches
  rw [hp]
  cases st <;> rfl

theorem hardwareMatches_other {s : State} (hp : ∀ pin n st, s.pc ≠ .setup pin n st) :
    HardwareMatches s ↔ (s.life = .ready → HardwareReady s) := by
  unfold HardwareMatches
  cases hpc : s.pc with
  | setup pin n st => exact absurd hpc (hp pin n st)
  | idle | send e | clearAll c | cleanup c | terminate c => rfl

theorem SetupConfigured.kept {pin : Int} {st : SetupStep} {s t : State} (hk : ConfigurationKept s t)
    (h : SetupConfigured pin s st) : SetupConfigured pin t st := by
  have hpin := hk.lookupPin pin
  cases st with
  | s1 | s2 => trivial
  | s3 e => exact hpin.trans h
  | s4 e m =>
    obtain ⟨hfound, htiming⟩ := h
    exact ⟨hpin.trans hfound, htiming.congr hk.timing⟩
  | s5 e k | s6 e a | s7 e =>
    obtain ⟨hfound, htiming, hconfigured⟩ := h
    exact ⟨hpin.trans hfound, htiming.congr hk.timing, hk.upTo _ e hconfigured⟩

/-- Where the command in progress and the lifecycle state stay too, the peripherals stay as they should be. -/
theorem HardwareMatches.kept {s t : State} (hk : ConfigurationKept s t) (hpc : t.pc = s.pc) (hl : t.life = s.life)
    (h : HardwareMatches s) : HardwareMatches t := by
  by_cases hp : ∃ pin n st, s.pc = .setup pin n st
  · obtain ⟨pin, n, st, hp⟩ := hp
    obtain ⟨hlife, hst⟩ := (hardwareMatches_setup hp).mp h
    exact (hardwareMatches_setup (hpc.trans hp)).mpr ⟨hl.trans hlife, hst.kept hk⟩
  · push Not at hp
    rw [hardwareMatches_other hp] at h
    exact (hardwareMatches_other (by rw [hpc]; exact hp)).mpr fun hr => (h (hl.symm.trans hr)).kept hk

/-! ### The registers of a configuration R10 accepts -/

theorem regInBlock_of_configOk {c : Config} (hc : configOk c = true) {r : Reg} (hr : r ∈ accessedRegs c) :
    regInBlock c r = true := by
  obtain ⟨-, -, -, -, -, -, -, -, -, -, -, -, -, hl⟩ := (configOk_iff c).mp hc
  simp only [layoutOk, Bool.and_eq_true, List.all_eq_true] at hl
  obtain ⟨hregs, -⟩ := hl
  exact hregs r hr

/-- The registers that are the same for every pin lie in their blocks (R63). -/
theorem regInBlock_fixed {c : Config} (hc : configOk c = true) {r : Reg}
    (hr : r ∈ [Reg.cmCtl, .cmDiv, .pwmCtl, .pwmSta, .pwmDmac, .timerClo, .dmaCs, .dmaConblk, .dmaDebug]) :
    regInBlock c r = true :=
  regInBlock_of_configOk hc (List.mem_append_left _ hr)

/-- The entry found for a pin is the first one of its own pin (R34, R96). -/
theorem lookupPin_own {c : Config} {pin : Int} {e : PinEntry} (h : lookupPin c pin = some e) :
    e ∈ c.pinMap ∧ lookupPin c e.pin = some e := by
  have own : (e.pin : Int) = pin := by
    have hfound := List.find?_some h
    exact eq_of_beq hfound
  exact ⟨List.mem_of_find?_eq_some h, by rw [own]; exact h⟩

theorem mem_accessedRegs {c : Config} {pin : Int} {e : PinEntry} (h : lookupPin c pin = some e) :
    .gpfsel e.pin ∈ accessedRegs c ∧ .pwmRng e.ch ∈ accessedRegs c := by
  obtain ⟨hmem, hown⟩ := lookupPin_own h
  have entry : e ∈ c.pinMap.filter (fun e => decide (lookupPin c e.pin = some e)) :=
    List.mem_filter.mpr ⟨hmem, by simpa using hown⟩
  unfold accessedRegs
  constructor <;> exact List.mem_append_right _ (List.mem_flatMap.mpr ⟨e, entry, by simp⟩)

section Rules
variable {α : Type} {G : α → State → Prop} {D : State → Prop} {R : Status → Detail → State → Prop}

/-- A register write inside its block goes on with its effect (R62). -/
theorem Proc.meets_regWrite {r : Reg} {eff : State → State} {s : State} {k : State → Proc α}
    (hr : regInBlock s.cfg r = true) (h : (k (eff s)).Meets G D R) : (Proc.after (regWrite r eff s) k).Meets G D R :=
  Proc.meets_after fun s' hs' => by
    obtain ⟨-, ⟨-, rfl⟩ | ⟨hout, -⟩⟩ := regWrite_cases hs'
    · exact h
    · rw [hr] at hout
      cases hout

theorem Proc.meets_cmWrite {r : Reg} {p : Nat} {eff : State → State} {s : State} {k : State → Proc α}
    (hr : regInBlock s.cfg r = true) (h : (k (eff s)).Meets G D R) : (Proc.after (cmWrite r p eff s) k).Meets G D R :=
  Proc.meets_after fun s' hs' => by
    obtain ⟨-, -, ⟨-, rfl⟩ | ⟨hout, -⟩⟩ := cmWrite_cases hs'
    · exact h
    · rw [hr] at hout
      cases hout

/-- A register read inside its block goes on with the value (R62). -/
theorem Proc.meets_readInBlock {β : Type} {r : Reg} {value : State → β} {stay : α} {s : State} {k : β → Proc α}
    (hr : regInBlock s.cfg r = true) (h : (k (value s)).Meets G D R) : (Proc.read r value stay s k).Meets G D R :=
  Proc.meets_read (fun _ _ => h) fun hout => by
    rw [hr] at hout
    cases hout

end Rules

@[simp] theorem Pwm.channel_writeDmac (p : Pwm) (enab : Bool) (dreq panic : Nat) (c : Channel) :
    ({ p with dmacEnab := enab, dmacDreq := dreq, dmacPanic := panic } : Pwm).channel c = p.channel c := by
  cases c <;> rfl

theorem readFsel_writeFsel_same (pin code : Nat) (s : State) : readFsel (writeFsel pin code s) pin = code := by
  unfold readFsel writeFsel
  dsimp only
  split
  · next h => simp [h]
  · simp

theorem readFsel_writeFsel_other {pin p : Nat} (h : p ≠ pin) (code : Nat) (s : State) :
    readFsel (writeFsel pin code s) p = readFsel s p := by
  unfold readFsel writeFsel
  dsimp only
  split
  · rw [sparseGet_erase_other h]
  · rw [sparseGet_put_other h]

/-- Each of CONFIGURE's writes adds to what has been configured, and takes nothing back (R137, R138). -/
theorem configureStep_configures {pin : Int} {e : PinEntry} (k : ConfigureStep) {s : State} (hc : configOk s.cfg = true)
    (he : lookupPin s.cfg pin = some e) (h : ConfiguredUpTo (configureIndex k) e s) :
    (configureStep e k s).Meets (fun l t => ConfiguredUpTo (configureIndex l) e t) (ConfiguredUpTo 11 e)
      (fun _ _ _ => True) := by
  obtain ⟨hfsel, hrng⟩ := mem_accessedRegs he
  unfold configureStep
  cases k with
  | k1 =>
    refine Proc.meets_regWrite (regInBlock_of_configOk hc hfsel) ?_
    simp [ConfiguredUpTo, configureIndex, readFsel_writeFsel_same]
  | k2 =>
    refine Proc.meets_regWrite (regInBlock_fixed hc (by simp)) ?_
    simpa [ConfiguredUpTo, configureIndex, readFsel, GroupConfigured, writeCtlGroup] using h
  | k3 =>
    refine Proc.meets_cmWrite (regInBlock_fixed hc (by simp)) ?_
    simpa [ConfiguredUpTo, configureIndex, readFsel, writeCmCtl] using h
  | k4 => exact Proc.meets_readInBlock (regInBlock_fixed hc (by simp)) h
  | k4Busy t0 =>
    refine Proc.meets_readInBlock (regInBlock_fixed hc (by simp)) ?_
    split
    · exact h
    · simpa [ConfiguredUpTo, configureIndex] using h
  | k4Time t0 =>
    refine Proc.meets_readInBlock (regInBlock_fixed hc (by simp)) ?_
    split
    · trivial
    · exact h
  | k5 =>
    refine Proc.meets_cmWrite (regInBlock_fixed hc (by simp)) ?_
    simpa [ConfiguredUpTo, configureIndex, readFsel, writeCmDiv] using h
  | k6 =>
    refine Proc.meets_cmWrite (regInBlock_fixed hc (by simp)) ?_
    simp only [ConfiguredUpTo, configureIndex] at h
    obtain ⟨hfs, hgroup, hpwen, -, hdiv, -⟩ := h
    obtain ⟨hdivi, hdivf⟩ := hdiv (by omega)
    have clock : ClockRuns (writeCmCtl s.cfg.clkSrc true s) := by
      refine ⟨rfl, rfl, hdivi, hdivf, ?_⟩
      simp [writeCmCtl, hdivi]
    show ConfiguredUpTo 7 e _
    exact ⟨fun _ => hfs (by omega), fun _ => hgroup (by omega), fun _ _ => hpwen (by omega) (by omega), by omega,
      fun _ => ⟨hdivi, hdivf⟩, fun _ => clock, by omega, by omega, by omega⟩
  | k7 => exact Proc.meets_readInBlock (regInBlock_fixed hc (by simp)) h
  | k7Wait t1 =>
    refine Proc.meets_readInBlock (regInBlock_fixed hc (by simp)) ?_
    split
    · simpa [ConfiguredUpTo, configureIndex] using h
    · exact h
  | k8 =>
    refine Proc.meets_regWrite (regInBlock_of_configOk hc hrng) ?_
    simpa [ConfiguredUpTo, configureIndex, readFsel, writeRng, ClockRuns, GroupConfigured] using h
  | k9 =>
    refine Proc.meets_regWrite (regInBlock_fixed hc (by simp)) ?_
    simpa [ConfiguredUpTo, configureIndex, readFsel, writeDmac, ClockRuns, DmacConfigured] using h
  | k10 =>
    refine Proc.meets_regWrite (regInBlock_fixed hc (by simp)) ?_
    simp only [ConfiguredUpTo, configureIndex] at h
    obtain ⟨hfs, hgroup, -, -, hdiv, hclock, hrange, hdmac, -⟩ := h
    have channel : ((writePwen e.ch true s).pwm.channel e.ch) = { s.pwm.channel e.ch with pwen := true } :=
      Pwm.channel_setChannel_same _ _ _
    refine ⟨fun _ => hfs (by omega), fun _ => ?_, by omega, by omega, fun _ => hdiv (by omega), fun _ => hclock (by omega),
      fun _ => ?_, fun _ => ?_, fun _ => ?_⟩
    · rw [channel]
      exact hgroup (by omega)
    · rw [channel]
      exact hrange (by omega)
    · simpa [DmacConfigured, writePwen] using hdmac (by omega)
    · rw [channel]

/-- `mapClose` leaves the peripherals alone (R173). -/
theorem mapClose_hardware (s : State) : (mapClose s).hardware = s.hardware :=
  congrArg Prod.fst (cleanupKept_of_transferKept (mapClose_transferKept s))

/-- SETUP finds the pin's entry, stores the derivation, and configures the peripherals in K1 to K10's order; at its end
they are as R314 says (R138, R212). -/
theorem setupStep_configured (pin n : Int) (st : SetupStep) {s : State} (hc : configOk s.cfg = true)
    (h : SetupConfigured pin s st) :
    (setupStep pin n st s).Meets (fun l t => SetupConfigured pin t l) HardwareReady (fun _ _ _ => True) := by
  cases st with
  | s1 => simp only [setupStep]; split <;> trivial
  | s2 =>
    simp only [setupStep]
    split
    · trivial
    · next e he => exact he
  | s3 e =>
    simp only [setupStep]
    split
    · trivial
    · next tm htm => exact ⟨h, (timingStored_iff _).mpr ⟨tm, htm, rfl, rfl, rfl, rfl, rfl⟩⟩
  | s4 e m =>
    have kept {t : State} (hf : MapFrame s t) : SetupConfigured pin t (.s4 e m) :=
      h.kept (.of_hardware (by rw [hf]; rfl))
    refine Proc.meets_call (Proc.Meets.mono (mapStep_frame m s) (fun _ _ hf => kept hf) (fun t hf => ?_)
      fun _ _ _ _ => trivial)
    obtain ⟨he, ht⟩ := kept hf
    exact ⟨he, ht, by simp [ConfiguredUpTo, configureIndex]⟩
  | s5 e k =>
    obtain ⟨he, ht, hup⟩ := h
    have kept {t : State} (hf : ConfigureFrame s t) : lookupPin t.cfg pin = some e ∧ TimingStored t :=
      ⟨by rw [hf]; exact he, ht.congr (by rw [hf]; rfl)⟩
    refine Proc.meets_callUndo (((configureStep_configures k hc he hup).and (configureStep_frame e k s)).mono ?_ ?_
      fun _ _ _ _ => trivial)
    · rintro l t ⟨hl, hf⟩
      exact ⟨(kept hf).1, (kept hf).2, hl⟩
    · rintro t ⟨hd, hf⟩
      exact ⟨(kept hf).1, (kept hf).2, hd⟩
  | s6 e a =>
    have kept {t : State} (hf : AllocateFrame s t) : SetupConfigured pin t (.s6 e a) :=
      h.kept (.of_hardware (by rw [hf]; rfl))
    exact Proc.meets_callUndo (Proc.Meets.mono (allocateStep_frame _ a s) (fun _ _ hf => kept hf) (fun _ hf => kept hf)
      fun _ _ _ _ => trivial)
  | s7 e =>
    obtain ⟨he, ht, hup⟩ := h
    exact ⟨e, he, rfl, TimingStored.congr (s := s) rfl ht, ConfiguredUpTo.congr (s := s) rfl rfl hup⟩

/-- The block stays Unconfigured until SETUP's commit (R21, R212 S7). -/
theorem setupStep_life (pin n : Int) (st : SetupStep) {s : State} (h : s.life = .unconfigured) :
    (setupStep pin n st s).Meets (fun _ t => t.life = .unconfigured) (fun _ => True)
      (fun _ _ t => t.life = .unconfigured) := by
  have closed {t : State} (ht : t.life = .unconfigured) : (mapClose t).life = .unconfigured :=
    (congrArg Prod.fst (mapClose_transferKept t)).trans ht
  cases st with
  | s1 | s2 | s3 e => simp only [setupStep]; split <;> exact h
  | s4 e m => exact Proc.meets_call ((mapStep_frame m s).mono fun t hf => by rw [hf]; exact h)
  | s5 e k =>
    have kept : (configureStep e k s).Within (fun t => t.life = .unconfigured) :=
      (configureStep_frame e k s).mono fun t hf => by rw [hf]; exact h
    exact Proc.meets_callUndo (Proc.Meets.mono kept (fun _ _ ht => ht) (fun _ ht => ht) fun _ _ _ => closed)
  | s6 e a =>
    have kept : (allocateStep (regionSize s.cfg (capacityFor n.toNat s.resetGapLength)) a s).Within
        (fun t => t.life = .unconfigured) :=
      (allocateStep_frame _ a s).mono fun t hf => by rw [hf]; exact h
    exact Proc.meets_callUndo (Proc.Meets.mono kept (fun _ _ ht => ht) (fun _ ht => ht) fun _ _ _ => closed)
  | s7 e => trivial

theorem microStep_hardwareMatches {s t : State} (hc : configOk s.cfg = true) (hm : microStep s = .next t)
    (h : HardwareMatches s) : HardwareMatches t := by
  by_cases hp : ∃ pin n st, s.pc = .setup pin n st
  · obtain ⟨pin, n, st, hp⟩ := hp
    obtain ⟨hlife, hconf⟩ := (hardwareMatches_setup hp).mp h
    simp only [microStep, hp] at hm
    refine resolve_meets hm
      (((setupStep_configured pin n st hc hconf).and (setupStep_life pin n st hlife)).mono ?_ ?_ ?_)
    · rintro l u ⟨hu, hl⟩
      exact (hardwareMatches_setup rfl).mpr ⟨hl, SetupConfigured.kept (s := u) (.of_hardware rfl) hu⟩
    · rintro u ⟨hu, -⟩
      exact (hardwareMatches_other (fun _ _ _ he => by cases he)).mpr fun _ =>
        HardwareReady.kept (s := u) (.of_hardware rfl) hu
    · rintro st d u ⟨-, hl⟩
      refine (hardwareMatches_other (fun _ _ _ he => by cases he)).mpr fun hr => ?_
      rw [show (raiseError st d u).life = .unconfigured from hl] at hr
      cases hr
  · push Not at hp
    obtain ⟨hkept, hlife⟩ := microStep_keeps hm hp
    rw [hardwareMatches_other hp] at h
    exact (hardwareMatches_other (microStep_not_setup hm hp)).mpr fun hr =>
      (h (hlife hr)).kept (.of_hardware (congrArg Prod.fst hkept))

/-- The CLK agent stops the generator only where K3 has asked for it and K6 has not yet started it again (R45, R137). -/
theorem ConfiguredUpTo.clkStep {n : Nat} {e : PinEntry} {s : State} (h : ConfiguredUpTo n e s) :
    ConfiguredUpTo n e (clkStep s) := by
  obtain ⟨-, he⟩ | ⟨henab, he⟩ := clkStep_cases s <;> rw [he]
  · exact h
  · obtain ⟨hfs, hgroup, hpwen, hoff, hdiv, hclock, hrange, hdmac, hon⟩ := h
    have early : n < 7 := by
      by_contra hn
      obtain ⟨hrun, -⟩ := hclock (by omega)
      rw [henab] at hrun
      cases hrun
    exact ⟨hfs, hgroup, hpwen, hoff, hdiv, fun hn => absurd hn (by omega), hrange, hdmac, hon⟩

theorem ConfigurationKept.clkStep (s : State) : ConfigurationKept s (clkStep s) := by
  refine ⟨?_, ?_, ?_, fun n e h => h.clkStep⟩ <;> obtain ⟨-, he⟩ | ⟨-, he⟩ := clkStep_cases s <;>
    simp [he, State.timing]

/-- Of the other agents only CLK touches what CONFIGURE writes, and only where CONFIGURE asks for it (R45). -/
theorem agentStep_hardwareMatches (a : Agent) (s t : State) (hc : configOk s.cfg = true) (ha : agentStep a s = .next t)
    (h : HardwareMatches s) : HardwareMatches t := by
  by_cases hseq : a = .seq
  · subst hseq
    exact microStep_hardwareMatches hc ha h
  · have hframe := agentStep_frame hseq ha
    refine h.kept ?_ (by rw [hframe]) (by rw [hframe])
    cases a with
    | seq => exact absurd rfl hseq
    | clk => cases ha; exact .clkStep s
    | dma => exact .of_hardware (by rw [dmaStep_frame ha]; rfl)
    | pwm =>
      cases ha
      obtain ⟨-, he⟩ | ⟨-, rest, m, -, -, he⟩ := pwmStep_cases s <;>
        exact .of_hardware (by simp [he, State.hardware, State.timing])
    | timer => cases ha; exact .of_hardware rfl
    | host =>
      cases ha
      obtain ⟨acts, n, input, term, he, -, -⟩ := hostStep_cases s
      exact .of_hardware (by rw [he]; rfl)
    | platform =>
      cases ha
      obtain ⟨-, he⟩ | ⟨r, a, as, n, -, he⟩ := platformStep_cases s <;>
        exact .of_hardware (by simp [he, State.hardware, State.timing])

theorem IdleChange.hardwareMatches {s t : State} (hp : s.pc = .idle) (hi : IdleChange s t) (h : HardwareMatches s) :
    HardwareMatches t := by
  have hother : ∀ pin n st, s.pc ≠ .setup pin n st := fun _ _ _ he => by rw [hp] at he; cases he
  have keeps {u : State} (hu : ∀ pin n st, u.pc ≠ .setup pin n st) (hl : u.life = .ready → s.life = .ready)
      (hk : u.hardware = s.hardware) : HardwareMatches u :=
    (hardwareMatches_other hu).mpr fun hr => ((hardwareMatches_other hother).mp h (hl hr)).kept (.of_hardware hk)
  cases hi with
  | answer input resp hfb => exact keeps hother id rfl
  | halt hu => exact keeps hother (fun hr => by simp at hr) rfl
  | @start pc hst =>
    by_cases hsetup : ∃ pin n st, pc = .setup pin n st
    · obtain ⟨pin, n, st, rfl⟩ := hsetup
      generalize hlife : s.life = life at hst
      cases hst
      exact (hardwareMatches_setup (s := s.setPc _) rfl).mpr ⟨hlife, trivial⟩
    · push Not at hsetup
      exact keeps hsetup id rfl

/-- Settles O56: what SETUP has configured is kept by the idle sequencer and by every agent. -/
theorem hardwareAlwaysMatches : Obligations.HardwareAlwaysMatches := by
  intro s t hs h
  refine step_keeps (fun s _ _ hs => HardwareMatches.kept (s := s) (.of_hardware rfl) rfl rfl hs)
    (fun s t hp hi hs => hi.hardwareMatches hp hs) agentStep_hardwareMatches h hs

/-! ## Micro-steps that go on

`Proc.Runs` is `Proc.Meets` for a micro-step that does not stop the machine. -/

/-- The micro-step does not stop the machine, and its outcome meets the property named for it. -/
def Proc.Runs {α : Type} (p : Proc α) (G : α → State → Prop) (D : State → Prop)
    (R : Status → Detail → State → Prop) : Prop :=
  match p with
  | .goto l s => G l s
  | .done s => D s
  | .raise st d s => R st d s
  | .stop _ => False

/-- The micro-step does not stop the machine and records no model fault. -/
def Proc.Clean {α : Type} (p : Proc α) (s : State) : Prop :=
  p.Runs (fun _ t => t.fault = s.fault) (fun t => t.fault = s.fault) (fun _ _ t => t.fault = s.fault)

section Rules
variable {α β : Type} {G : α → State → Prop} {D : State → Prop} {R : Status → Detail → State → Prop} {s : State}

theorem Proc.Runs.mono {p : Proc α} {G' : α → State → Prop} {D' : State → Prop}
    {R' : Status → Detail → State → Prop} (h : p.Runs G D R) (hG : ∀ l s, G l s → G' l s)
    (hD : ∀ s, D s → D' s) (hR : ∀ st d s, R st d s → R' st d s) : p.Runs G' D' R' := by
  cases p with
  | goto l s => exact hG l s h
  | done s => exact hD s h
  | raise st d s => exact hR st d s h
  | stop f => exact h

theorem Proc.runs_call {p : Proc β} {wrap : β → α} {next : State → Proc α}
    (h : p.Runs (fun l s => G (wrap l) s) (fun s => (next s).Runs G D R) R) : (p.call wrap next).Runs G D R := by
  cases p <;> exact h

theorem Proc.runs_callUndo {p : Proc β} {wrap : β → α} {undo : State → State} {next : State → Proc α}
    (h : p.Runs (fun l s => G (wrap l) s) (fun s => (next s).Runs G D R) (fun st d s => R st d (undo s))) :
    (p.callUndo wrap undo next).Runs G D R := by
  cases p <;> exact h

theorem resolve_runs {wrap : α → Pc} {finish : State → State} {p : Proc α} {P : State → Prop}
    (hp : p.Runs (fun l s => P (s.setPc (wrap l))) (fun s => P (finish s)) (fun st d s => P (raiseError st d s))) :
    ∃ t, resolve wrap finish p = .next t ∧ P t := by
  cases p with
  | goto l s => exact ⟨_, rfl, hp⟩
  | done s => exact ⟨_, rfl, hp⟩
  | raise st d s => exact ⟨_, rfl, hp⟩
  | stop f => exact hp.elim

/-- A request to PLATFORM stops nothing (R170). -/
theorem Proc.clean_ask {r : Request} {stay : α} {k : Answer → State → Proc α}
    (hk : ∀ a, (k a (s.setExchange .quiet)).Clean s) : (Proc.ask r stay s k).Clean s := by
  unfold Proc.ask
  cases s.exchange with
  | quiet => rfl
  | asked r' => rfl
  | answered a => exact hk a

/-- A register read through the mapped window, inside its block, goes on with the value (R62). -/
theorem Proc.read_eq {r : Reg} {value : State → β} {stay : α} {k : β → Proc α} (hm : s.mapped = true)
    (hr : regInBlock s.cfg r = true) : Proc.read r value stay s k = k (value s) := by
  simp [Proc.read, hm, hr]

theorem Proc.after_regWrite {r : Reg} {eff : State → State} {k : State → Proc α} (hm : s.mapped = true)
    (hr : regInBlock s.cfg r = true) : Proc.after (regWrite r eff s) k = k (eff s) := by
  rw [regWrite_effect hm hr, Proc.after]

theorem Proc.after_cmWrite {r : Reg} {eff : State → State} {k : State → Proc α} (hm : s.mapped = true)
    (hr : regInBlock s.cfg r = true) : Proc.after (cmWrite r s.cfg.layout.cmPasswd eff s) k = k (eff s) := by
  rw [cmWrite, if_pos rfl, Proc.after_regWrite hm hr]

end Rules

/-! ### SETUP, RELEASE and WAIT_IDLE -/

theorem mapStep_clean (m : MapStep) (s : State) : (mapStep m s).Clean s := by
  unfold mapStep
  cases m with
  | m1 | m2 b => exact Proc.clean_ask fun a => by cases a.ok <;> rfl
  | m3 => rfl

@[simp] theorem platUnlock_fault (s : State) : (platUnlock s).fault = s.fault := rfl
@[simp] theorem platFree_fault (s : State) : (platFree s).fault = s.fault := rfl
@[simp] theorem platClose_fault (s : State) : (platClose s).fault = s.fault := rfl

theorem allocateStep_clean (n : Nat) (a : AllocateStep) (s : State) : (allocateStep n a s).Clean s := by
  unfold allocateStep
  cases a with
  | a0 => dsimp only; split <;> rfl
  | a1 | a2 | a3 h | a4 h b => exact Proc.clean_ask fun a => by cases a.ok <;> simp [Proc.Clean, Proc.Runs]
  | a5 h b v => rfl

/-- With the window mapped, no access of CONFIGURE is out of its block or without the password (R35, R62, R63). -/
theorem configureStep_clean {pin : Int} {e : PinEntry} (k : ConfigureStep) {s : State} (hc : configOk s.cfg = true)
    (he : lookupPin s.cfg pin = some e) (hm : s.mapped = true) : (configureStep e k s).Clean s := by
  obtain ⟨hfsel, hrng⟩ := mem_accessedRegs he
  unfold configureStep
  cases k with
  | k1 => dsimp only; rw [Proc.after_regWrite hm (regInBlock_of_configOk hc hfsel)]; rfl
  | k8 => dsimp only; rw [Proc.after_regWrite hm (regInBlock_of_configOk hc hrng)]; rfl
  | k2 | k9 | k10 => dsimp only; rw [Proc.after_regWrite hm (regInBlock_fixed hc (by simp))]; rfl
  | k3 | k5 | k6 => dsimp only; rw [Proc.after_cmWrite hm (regInBlock_fixed hc (by simp))]; rfl
  | k4 | k7 => dsimp only; rw [Proc.read_eq hm (regInBlock_fixed hc (by simp))]; rfl
  | k4Busy | k4Time | k7Wait => dsimp only; rw [Proc.read_eq hm (regInBlock_fixed hc (by simp))]; split <;> rfl

/-- MAP_CLOSE touches no model fault (R173). -/
theorem mapClose_fault (s : State) : (mapClose s).fault = s.fault := by
  obtain ⟨-, h⟩ | ⟨-, h⟩ := mapClose_cases s <;> rw [h]

theorem setupStep_clean (pin n : Int) (st : SetupStep) {s : State} (hc : configOk s.cfg = true)
    (hr : setupResources n s st) (hs : SetupConfigured pin s st) : (setupStep pin n st s).Clean s := by
  cases st with
  | s1 | s2 | s3 e => simp only [setupStep]; split <;> rfl
  | s4 e m => exact Proc.runs_call ((mapStep_clean m s).mono (fun _ _ h => h) (fun _ h => h) fun _ _ _ h => h)
  | s5 e k =>
    obtain ⟨he, -⟩ := hs
    obtain ⟨⟨-, hm, -⟩, -⟩ := id hr
    exact Proc.runs_callUndo ((configureStep_clean k hc he hm).mono (fun _ _ h => h) (fun _ h => h)
      fun _ _ t h => (mapClose_fault t).trans h)
  | s6 e a =>
    exact Proc.runs_callUndo ((allocateStep_clean _ a s).mono (fun _ _ h => h) (fun _ h => h)
      fun _ _ t h => (mapClose_fault t).trans h)
  | s7 e => rfl

/-- With the window mapped, WAIT_IDLE holds or goes on, and stops nothing (R181, R182). -/
theorem waitStep_runs (w : WaitStep) {s : State} (hc : configOk s.cfg = true) (hm : s.mapped = true) :
    (waitStep w s).Runs (fun l t => t = s ∧ (l = w ∨ w = .w1 ∧ l = .w2 ∧ s.dma.phase = .stopped))
      (fun t => w = .w2 ∧ t = { s with dmaState := .idle }) (fun _ _ _ => False) := by
  unfold waitStep
  cases w with
  | w1 =>
    dsimp only
    rw [Proc.read_eq hm (regInBlock_fixed hc (by simp))]
    unfold flagActive
    cases hp : s.dma.phase with
    | running => exact ⟨rfl, .inl rfl⟩
    | stopped => exact ⟨rfl, .inr ⟨rfl, rfl, rfl⟩⟩
  | w2 =>
    dsimp only
    rw [Proc.read_eq hm (regInBlock_fixed hc (by simp))]
    split
    · exact ⟨rfl, rfl⟩
    · exact ⟨rfl, .inl rfl⟩

theorem releaseStep_clean (l : ReleaseStep) {s : State} (hc : configOk s.cfg = true) : (releaseStep l s).Clean s := by
  unfold releaseStep
  split
  · cases l with
    | l1 w =>
      dsimp only
      split
      · next hm =>
        refine Proc.runs_call ((waitStep_runs w hc hm).mono ?_ ?_ fun _ _ _ h => h.elim)
        · rintro l t ⟨rfl, -⟩
          rfl
        · rintro t ⟨-, rfl⟩
          rfl
      · rfl
    | l2 | l3 | l4 | l5 => rfl
  · rfl

/-- Outside SEND, CLEANUP stops nothing, and it leads into SEND only at E1 (R224, R226). -/
theorem cleanupStep_runs {c : CleanupStep} (h : ∀ e, c ≠ .c1 (.send e)) {s : State} (hc : configOk s.cfg = true) :
    (cleanupStep c s).Runs (fun l t => t.fault = s.fault ∧ ∀ e, l = .c1 (.send e) → e = .e1)
      (fun t => t.fault = s.fault) (fun _ _ t => t.fault = s.fault) := by
  cases c with
  | c1 a =>
    cases a with
    | fill => exact ⟨rfl, fun e he => by cases he; rfl⟩
    | send e => exact absurd rfl (h e)
  | c2 l =>
    exact Proc.runs_call ((releaseStep_clean l hc).mono (fun _ _ h => ⟨h, fun e he => by cases he⟩)
      (fun _ h => ⟨h, fun e he => by cases he⟩) fun _ _ _ h => h)
  | c3 => exact ⟨mapClose_fault s, fun e he => by cases he⟩
  | c4 => rfl

/-! ### The channel -/

/-- What TRANSMIT and a running transfer have loaded, with SEND's micro-step `e` in progress (R178, R184). -/
def LoadedAt (e : SendStep) (s : State) : Prop :=
  (e ≠ .e1 → s.stage = waveform s)
    ∧ (∀ x r, e = .e3 x → s.region = some r → transmitProgress s r x)
    ∧ (s.dma.phase = .running → e = .e4 .w1
        ∧ ∃ r source, s.region = some r ∧ busAddr r cbBytes = some source ∧ SourceWritten s r s.stage.length
          ∧ s.dma.cb.words = controlWords s.cfg source s.stage.length ∧ s.dma.next ≤ s.stage.length)

theorem transferLoaded_sending {s : State} {e : SendStep} (h : sendPlace s.pc = some e) :
    TransferLoaded s ↔ LoadedAt e s := by
  unfold TransferLoaded LoadedAt
  rw [h]
  simp only [Option.some.injEq, forall_eq']
  

/-- Outside SEND, and at its start, nothing is loaded and the channel is stopped. -/
theorem transferLoaded_of_stopped {s : State} (h : ∀ e, sendPlace s.pc = some e → e = .e1)
    (hp : s.dma.phase = .stopped) : TransferLoaded s := by
  refine ⟨fun e he hne => absurd (h e he) hne, fun x r he => ?_, fun hr => ?_⟩
  · cases h _ he
  · rw [hp] at hr
    cases hr

theorem TransferLoaded.stopped {s : State} (h : TransferLoaded s) (hp : sendPlace s.pc ≠ some (.e4 .w1)) :
    s.dma.phase = .stopped := by
  obtain ⟨-, -, hrunning⟩ := h
  cases hr : s.dma.phase with
  | stopped => rfl
  | running =>
    obtain ⟨hplace, -⟩ := hrunning hr
    exact absurd hplace hp

/-! ### The size of the region -/

theorem le_ceilDiv_mul (a : Nat) {b : Nat} (hb : 1 ≤ b) : a ≤ ceilDiv a b * b := by
  unfold ceilDiv
  have hlt := Nat.lt_div_mul_add (a := a + b - 1) hb
  omega

theorem regionSize_mono (c : Config) {m n : Nat} (h : m ≤ n) : regionSize c m ≤ regionSize c n := by
  unfold regionSize ceilDiv
  exact Nat.mul_le_mul_right _ (Nat.div_le_div_right (by omega))

theorem leastValidFrom_valid {c : Config} {d : Nat} (k : Nat) :
    ∀ d₀, leastValidFrom c k d₀ = some d → validDiv c d = true := by
  induction k with
  | zero => intro d₀ h; cases h
  | succ k ih =>
    intro d₀ h
    unfold leastValidFrom at h
    split at h
    · next hv => cases h; exact hv
    · exact ih _ h

theorem chooseDiv_valid {c : Config} {d : Nat} (h : chooseDiv c = some d) : validDiv c d = true := by
  unfold chooseDiv at h
  split at h
  · split at h
    · next hv => cases h; exact hv
    · cases h
  · exact leastValidFrom_valid _ _ h

/-- The derived reset gap has at least one element (R134). -/
theorem resetGap_pos {c : Config} {tm : Timing} (hc : configOk c = true) (h : deriveTiming c = some tm) :
    1 ≤ tm.resetGapLength := by
  obtain ⟨hsrc, -, -, -, -, -, -, -, -, hreset, -⟩ := (configOk_iff c).mp hc
  unfold deriveTiming at h
  split at h
  · cases h
  · next d hd =>
    cases h
    have hv := chooseDiv_valid hd
    simp only [validDiv, Bool.and_eq_true, decide_eq_true_eq] at hv
    have hrange : 1 ≤ rangeTicks c d := by omega
    have hdiv : 1 ≤ d := by omega
    have hperiod : 1 ≤ rangeTicks c d * d * 10 ^ 9 := Nat.mul_pos (Nat.mul_pos hrange hdiv) (by norm_num)
    have htime : 1 ≤ c.tResetNs * c.fSrcHz := Nat.mul_pos hreset hsrc
    exact Nat.div_pos (by omega) hperiod

/-- In Ready, configured: the region has an address for the control block and for each element of the waveform, and
the waveform fills the SourceBuffer (R25, R66, R68, R134, R220; log 27). -/
theorem region_spans {s : State} (hc : configOk s.cfg = true) (hh : HoldsAll s) (ht : TimingStored s) :
    ∃ r, s.region = some r ∧ (∀ off n, off + n ≤ cbBytes + 4 * s.capacity → r.has off n = true)
      ∧ 1 ≤ s.capacity ∧ 4 * s.capacity < 2 ^ 32 ∧ (waveform s).length = s.capacity := by
  obtain ⟨-, -, -, -, hpage, -, -, -, -, -, -, hcount, hsize, -⟩ := (configOk_iff s.cfg).mp hc
  obtain ⟨-, -, ⟨r, hr, hrsize, -, hbase⟩, ⟨hled, hcap, hfb⟩, -⟩ := hh
  obtain ⟨tm, htm, -, -, -, -, hgap⟩ := (timingStored_iff s).mp ht
  have hpos := resetGap_pos hc htm
  have hlargest : s.capacity ≤ largestCount s.cfg := by
    rw [hcap]
    simp only [largestCount, htm, capacityFor, bitsPerLed]
    omega
  have hmono := regionSize_mono s.cfg hlargest
  have hfill := le_ceilDiv_mul (cbBytes + 4 * s.capacity) hpage
  have hrs : cbBytes + 4 * s.capacity ≤ regionSize s.cfg s.capacity := hfill
  refine ⟨r, hr, fun off n hle => (Region.has_iff r off n).mpr ?_, ?_, by omega, by rw [waveform_length, hfb, hcap]⟩
  · omega
  · rw [hcap]
    unfold capacityFor
    omega

/-! ### Loading the control block -/

/-- START reads the words that lie in the region one after another (R184). -/
theorem loadWords_ok {s : State} {r : Region} (hr : s.region = some r) (ws : List Word) :
    ∀ off, off % 4 = 0 →
      (∀ j w, ws[j]? = some w → r.has (off + 4 * j) 4 = true ∧ getWord r (off + 4 * j) s.mem = some w) →
      loadWords (cellOf r off) s ws.length = .ok (some ws) := by
  induction ws with
  | nil => intro off _ _; rfl
  | cons w ws ih =>
    intro off ha h
    obtain ⟨hhas, hw⟩ := h 0 w rfl
    have hread : busRead (cellOf r off) s = .ok (.word w) := busRead_word hr hhas ha hw
    have hnext : cellOf r off + 4 = cellOf r (off + 4) := by
      unfold cellOf
      omega
    have hrest := ih (off + 4) (by omega) fun j v hv => by
      have := h (j + 1) v hv
      rwa [show off + 4 + 4 * j = off + 4 * (j + 1) by omega]
    simp only [List.length_cons, loadWords, hread, hnext, hrest]

/-- What TRANSMIT has written as the control block, START loads (R99, R178, R184). -/
theorem loadBlock_ok {s : State} {r : Region} {a : Word} (hr : s.region = some r) (ha : busAddr r 0 = some a)
    (hspan : ∀ off n, off + n ≤ cbBytes → r.has off n = true) (hb : BlockWritten s r 8) :
    ∃ source cb, busAddr r cbBytes = some source ∧ loadBlock a s = .ok (.block cb)
      ∧ cb.words = controlWords s.cfg source s.stage.length := by
  obtain ⟨source, hsource, hwords⟩ := hb
  obtain ⟨a', ha', haddr⟩ := busAddr_some (hspan 0 1 (by decide))
  obtain rfl : a' = a := Option.some.inj (ha'.symm.trans ha)
  have hload := loadWords_ok hr (controlWords s.cfg source s.stage.length) 0 rfl fun j w hj => by
    have hlt : j < 8 := (List.getElem?_eq_some_iff.mp hj).1
    rw [Nat.zero_add]
    exact ⟨hspan _ _ (by unfold cbBytes; omega), hwords j w hlt hj⟩
  refine ⟨source, ⟨tiValue s.cfg, source, fifoBus s.cfg, BitVec.ofNat 32 (4 * s.stage.length), 0, 0, 0, 0⟩, hsource, ?_,
    rfl⟩
  unfold loadBlock
  rw [haddr]
  simp only [controlWords, List.length_cons, List.length_nil] at hload
  rw [hload]

/-- TRANSMIT's control block is one the model gives a meaning to, where there is something to send (R185). -/
theorem supportedCb_of_words {c : Config} {cb : ControlBlock} {source : Word} {n : Nat} (hpos : 1 ≤ n)
    (hlt : 4 * n < 2 ^ 32) (h : cb.words = controlWords c source n) :
    supportedCb c cb = true ∧ cb.source = source ∧ cb.length.toNat = 4 * n := by
  simp only [ControlBlock.words, controlWords, List.cons.injEq] at h
  obtain ⟨hti, hsource, hdest, hlen, -, hnext, -⟩ := h
  have hn : cb.length.toNat = 4 * n := by
    rw [hlen, BitVec.toNat_ofNat]
    exact Nat.mod_eq_of_lt hlt
  have hne : cb.length ≠ 0 := fun h0 => by
    have hzero : cb.length.toNat = 0 := congrArg BitVec.toNat h0
    omega
  refine ⟨?_, hsource, hn⟩
  simp only [supportedCb, Bool.and_eq_true, decide_eq_true_eq]
  exact ⟨⟨⟨⟨hti, hdest⟩, hnext⟩, hne⟩, by omega⟩

/-! ### SEND -/

theorem SourceWritten.putWord {s : State} {r : Region} {n off : Nat} (h : SourceWritten s r n) (w : Word)
    (hoff : off + 4 ≤ cbBytes ∨ cbBytes + 4 * n ≤ off) : SourceWritten (s.setMem (putWord r off w s.mem)) r n := by
  intro i e hi he
  rw [State.setMem_mem, getWord_putWord_other r w s.mem (by omega)]
  exact h i e hi he

/-- X3 writes the next element (R69, R178). -/
theorem SourceWritten.next {s : State} {r : Region} {i : Nat} {e : Byte} (h : SourceWritten s r i)
    (he : s.stage[i]? = some e) :
    SourceWritten (s.setMem (Sys2Proof.Machine.putWord r (cbBytes + 4 * i) (sourceWord e) s.mem)) r (i + 1) := by
  intro j e' hj he'
  by_cases hij : j = i
  · subst hij
    obtain rfl : e' = e := Option.some.inj (he'.symm.trans he)
    exact getWord_putWord_same r _ _ _
  · exact h.putWord (sourceWord e) (.inr le_rfl) j e' (by omega) he'

/-- X4 writes the next word of the control block (R99, R178). -/
theorem BlockWritten.next {s : State} {r : Region} {j : Nat} {source w : Word} (h : BlockWritten s r j)
    (hsource : busAddr r cbBytes = some source) (hw : (controlWords s.cfg source s.stage.length)[j]? = some w) :
    BlockWritten (s.setMem (putWord r (4 * j) w s.mem)) r (j + 1) := by
  obtain ⟨source', hsource', hwords⟩ := h
  obtain rfl : source' = source := Option.some.inj (hsource'.symm.trans hsource)
  refine ⟨source', hsource, fun k v hk hv => ?_⟩
  by_cases hkj : k = j
  · subst hkj
    obtain rfl : v = w := Option.some.inj (hv.symm.trans hw)
    exact getWord_putWord_same r _ _ _
  · rw [State.setMem_mem, getWord_putWord_other r w s.mem (by omega)]
    exact hwords k v (by omega) hv

/-- What TRANSMIT goes on with at each of its micro-steps: a stopped channel, the waveform in the staging register, the
region, and what it has written so far (R178). -/
def Transmitting (r : Region) (x : TransmitStep) (s : State) : Prop :=
  s.dma.phase = .stopped ∧ s.stage = waveform s ∧ s.region = some r ∧ transmitProgress s r x

theorem dmaStart_starts {s : State} {cb : ControlBlock} (hp : s.dma.phase = .stopped)
    (hload : loadBlock s.dma.conblkAd s = .ok (.block cb)) (hcb : supportedCb s.cfg cb = true) :
    dmaStart s = .ok { s with dma := { s.dma with cb := cb, next := 0, phase := .running } } := by
  simp [dmaStart, hp, hload, hcb]

/-- A write of CS to a stopped channel runs the control block it finds, where the model gives it a meaning (R184, R185). -/
theorem csWrite_starts {p : Nat} {s : State} {cb : ControlBlock} (hm : s.mapped = true)
    (hcs : regInBlock s.cfg .dmaCs = true) (hp : s.dma.phase = .stopped)
    (hload : loadBlock s.dma.conblkAd (writePriority p s) = .ok (.block cb)) (hcb : supportedCb s.cfg cb = true) :
    csWrite p s = .ok { s with dma := { s.dma with priority := p, cb := cb, next := 0, phase := .running } } := by
  rw [csWrite, if_pos hm, if_pos hcs]
  exact dmaStart_starts (s := writePriority p s) hp hload hcb

/-- From a Ready, configured block TRANSMIT writes the SourceBuffer and the control block and starts the channel, and
stops or records nothing (R178, R185, R290). -/
theorem transmitStep_runs {s : State} {r : Region} (x : TransmitStep) (hc : configOk s.cfg = true) (hh : HoldsAll s)
    (ht : TimingStored s) (h : Transmitting r x s) :
    (transmitStep x s).Runs (fun l t => Transmitting r l t ∧ t.fault = s.fault)
      (fun t => LoadedAt (.e4 .w1) t ∧ t.fault = s.fault) (fun _ _ _ => False) := by
  obtain ⟨hstopped, hstage, hr, hx⟩ := h
  obtain ⟨r', hr', hspan, hpos, hlt, hlen⟩ := region_spans hc hh ht
  obtain rfl : r' = r := Option.some.inj (hr'.symm.trans hr)
  rw [← hstage] at hlen
  obtain ⟨-, hm, -⟩ := id hh
  have store {off : Nat} (v : Word) (ha : off % 4 = 0) (hle : off + 4 ≤ cbBytes + 4 * s.capacity) :
      memWrite off 4 v s = .ok (s.setMem (putWord r' off v s.mem)) := memWrite_stores hr ha (hspan _ _ hle) hstopped
  have hsource : ∃ source, busAddr r' cbBytes = some source := by
    obtain ⟨source, hs, -⟩ := busAddr_some (hspan cbBytes 1 (by omega))
    exact ⟨source, hs⟩
  cases x with
  | x1 =>
    simp only [transmitStep, hr, Option.isSome_some, if_true]
    exact ⟨⟨hstopped, hstage, hr, trivial⟩, rfl⟩
  | x2 =>
    have hfirst : x3Label 0 s.stage.length = .x3 0 := if_pos (by omega)
    simp only [transmitStep, if_neg (show ¬ s.capacity < s.stage.length by omega), hfirst]
    exact ⟨⟨hstopped, hstage, hr, by omega, fun i e hi => absurd hi (by omega)⟩, rfl⟩
  | x3 i =>
    obtain ⟨hi, hwritten⟩ := hx
    have he : s.stage[i]? = some s.stage[i] := List.getElem?_eq_getElem hi
    have hnext := hwritten.next he
    simp only [transmitStep, he, store (off := cbBytes + 4 * i) _ (by unfold cbBytes; omega) (by omega), Proc.after]
    refine ⟨⟨hstopped, hstage, hr, ?_⟩, rfl⟩
    unfold x3Label
    split
    · next hmore => exact ⟨hmore, hnext⟩
    · next hlast =>
      obtain ⟨source, hs⟩ := hsource
      obtain hend : i + 1 = s.stage.length := by omega
      rw [hend] at hnext
      exact ⟨by omega, hnext, source, hs, fun j w hj => absurd hj (by omega)⟩
  | x4 j =>
    obtain ⟨hj, hwritten, hblock⟩ := hx
    obtain ⟨source, haddr, hs, -⟩ := regionAddr_ok hr (hspan cbBytes 1 (by omega))
    have hjlen : j < (controlWords s.cfg source s.stage.length).length := hj
    have hw : (controlWords s.cfg source s.stage.length)[j]? = some (controlWords s.cfg source s.stage.length)[j] :=
      List.getElem?_eq_getElem hjlen
    have hsrc := hwritten.putWord (controlWords s.cfg source s.stage.length)[j] (off := 4 * j)
      (.inl (by unfold cbBytes; omega))
    have hnext := hblock.next hs hw
    simp only [transmitStep, haddr, hw, store (off := 4 * j) _ (by omega) (by unfold cbBytes; omega), Proc.after]
    refine ⟨⟨hstopped, hstage, hr, ?_⟩, rfl⟩
    unfold x4Label
    split
    · next hmore => exact ⟨hmore, hsrc, hnext⟩
    · next hlast =>
      obtain hend : j + 1 = 8 := by omega
      rw [hend] at hnext
      exact ⟨hsrc, hnext⟩
  | x5 =>
    simp only [transmitStep]
    rw [Proc.after_regWrite hm (regInBlock_fixed hc (by simp))]
    exact ⟨⟨hstopped, hstage, hr, hx⟩, rfl⟩
  | x6 =>
    obtain ⟨a, haddr, hs, -⟩ := regionAddr_ok hr (hspan 0 1 (by omega))
    simp only [transmitStep, haddr]
    rw [Proc.after_regWrite hm (regInBlock_fixed hc (by simp))]
    exact ⟨⟨hstopped, hstage, hr, hx.1, hx.2, hs⟩, rfl⟩
  | x7 =>
    obtain ⟨hwritten, hblock, hconblk⟩ := hx
    obtain ⟨source, cb, hs, hload, hwords⟩ := loadBlock_ok (s := writePriority s.cfg.dmaPriority s) hr hconblk
      (fun off n hle => hspan off n (by omega)) hblock
    have hwords : cb.words = controlWords s.cfg source s.stage.length := hwords
    obtain ⟨hsupported, -, -⟩ := supportedCb_of_words (by omega) (by omega) hwords
    simp only [transmitStep, csWrite_starts hm (regInBlock_fixed hc (by simp)) hstopped hload hsupported, Proc.after]
    exact ⟨⟨fun _ => hstage, fun x r he => (by cases he),
      fun _ => ⟨rfl, r', source, hr, hs, hwritten, hwords, Nat.zero_le _⟩⟩, rfl⟩

theorem LoadedAt.stopped {e : SendStep} {s : State} (h : LoadedAt e s) (he : e ≠ .e4 .w1) : s.dma.phase = .stopped := by
  obtain ⟨-, -, hrunning⟩ := h
  cases hr : s.dma.phase with
  | stopped => rfl
  | running =>
    obtain ⟨hplace, -⟩ := hrunning hr
    exact absurd hplace he

theorem LoadedAt.of_stopped {e : SendStep} {s : State} (hstage : s.stage = waveform s)
    (hx : ∀ x r, e = .e3 x → s.region = some r → transmitProgress s r x) (hp : s.dma.phase = .stopped) : LoadedAt e s :=
  ⟨fun _ => hstage, hx, fun hr => by rw [hp] at hr; cases hr⟩

/-- From a Ready, configured block SEND goes on to its end with the channel stopped, and stops or records nothing
(R221, R290). -/
theorem sendStep_runs {s : State} (e : SendStep) (hc : configOk s.cfg = true) (hh : HoldsAll s) (ht : TimingStored s)
    (h : LoadedAt e s) :
    (sendStep e s).Runs (fun l t => LoadedAt l t ∧ t.fault = s.fault)
      (fun t => t.dma.phase = .stopped ∧ t.fault = s.fault) (fun _ _ _ => False) := by
  obtain ⟨-, hm, -⟩ := id hh
  cases e with
  | e1 =>
    have hp := h.stopped (by simp)
    exact ⟨.of_stopped rfl (fun x r he => by cases he) hp, rfl⟩
  | e2 w =>
    have hp := h.stopped (by simp)
    have hstage := h.1 (by simp)
    refine Proc.runs_call ((waitStep_runs w hc hm).mono ?_ ?_ fun _ _ _ h => h)
    · rintro l t ⟨rfl, -⟩
      exact ⟨.of_stopped hstage (fun x r he => by cases he) hp, rfl⟩
    · rintro t ⟨-, rfl⟩
      exact ⟨.of_stopped hstage (fun x r he => by cases he; exact fun _ => trivial) hp, rfl⟩
  | e3 x =>
    obtain ⟨r, hr, -⟩ := region_spans hc hh ht
    have htrans : Transmitting r x s := ⟨h.stopped (by simp), h.1 (by simp), hr, h.2.1 x r rfl hr⟩
    refine Proc.runs_call ((transmitStep_runs x hc hh ht htrans).mono ?_ (fun _ hd => hd) fun _ _ _ h => h)
    rintro l t ⟨⟨hp, hstage, hreg, hx⟩, hfault⟩
    refine ⟨.of_stopped hstage (fun x r' he hr' => ?_) hp, hfault⟩
    cases he
    obtain rfl : r' = r := Option.some.inj (hr'.symm.trans hreg)
    exact hx
  | e4 w =>
    have hstage := h.1 (by simp)
    refine Proc.runs_call ((waitStep_runs w hc hm).mono ?_ ?_ fun _ _ _ h => h)
    · rintro l t ⟨rfl, rfl | ⟨-, rfl, hp⟩⟩
      · exact ⟨h, rfl⟩
      · exact ⟨.of_stopped hstage (fun x r he => by cases he) hp, rfl⟩
    · rintro t ⟨rfl, rfl⟩
      exact ⟨h.stopped (by simp), rfl⟩

/-! ### The agents in a sound state -/

/-- While SEND is in progress the block is Ready, with everything held and configured (R221). -/
theorem InOrder.sending {s : State} {e : SendStep} (h : InOrder s) (hp : sendPlace s.pc = some e) :
    HoldsAll s ∧ TimingStored s := by
  obtain ⟨-, hheld, hhw, -⟩ := h
  have hholds : HoldsAll s := by
    unfold HeldMatch at hheld
    obtain hpc | hpc | hpc | hpc := sendPlace_cases hp <;> (rw [hpc] at hheld; exact hheld)
  have hother : ∀ pin n st, s.pc ≠ .setup pin n st := fun pin n st he => by rw [he] at hp; cases hp
  obtain ⟨-, -, -, htiming, -⟩ := (hardwareMatches_other hother).mp hhw hholds.1
  exact ⟨hholds, htiming⟩

/-- A micro-step inside SEND goes on, records nothing, and has loaded what its place says (R178, R184, R290). -/
theorem microStep_sending {s : State} {e : SendStep} (h : InOrder s) (hp : sendPlace s.pc = some e) :
    ∃ t, microStep s = .next t ∧ TransferLoaded t ∧ t.fault = s.fault := by
  obtain ⟨hholds, htiming⟩ := h.sending hp
  obtain ⟨hc, -, -, hloaded⟩ := h
  obtain ⟨wrap, finish, hstep, hwrap, hfinish⟩ := microStep_send hp
  rw [hstep]
  refine resolve_runs ((sendStep_runs e hc hholds htiming ((transferLoaded_sending hp).mp hloaded)).mono ?_ ?_
    fun _ _ _ h => h.elim)
  · rintro l u ⟨hu, hfault⟩
    exact ⟨(transferLoaded_sending (s := u.setPc (wrap l)) (hwrap l)).mpr hu, hfault⟩
  · rintro u ⟨hu, hfault⟩
    obtain ⟨hplace, hkept⟩ := hfinish u
    simp only [Prod.mk.injEq] at hkept
    obtain ⟨-, hdma, hf⟩ := hkept
    exact ⟨transferLoaded_of_stopped (fun e he => by rw [hplace] at he; cases he) (by rw [hdma]; exact hu), hf.trans hfault⟩

/-- A micro-step outside SEND goes on, records nothing, and leads into SEND only at E1 (R290). -/
theorem microStep_outside {s : State} (h : InOrder s) (hp : sendPlace s.pc = none) :
    ∃ t, microStep s = .next t ∧ (∀ e, sendPlace t.pc = some e → e = .e1) ∧ t.fault = s.fault := by
  obtain ⟨hc, hheld, hhw, -⟩ := h
  have released {c : CleanupStep} {wrap : CleanupStep → Pc} {finish : State → State}
      (hcs : ∀ e, c ≠ .c1 (.send e)) (hwrap : ∀ l e, sendPlace (wrap l) = some e → l = .c1 (.send e))
      (hfinish : ∀ u, (finish u).pc = .idle ∧ (finish u).fault = u.fault) :
      ∃ t, resolve wrap finish (cleanupStep c s) = .next t ∧ (∀ e, sendPlace t.pc = some e → e = .e1)
        ∧ t.fault = s.fault := by
    refine resolve_runs ((cleanupStep_runs hcs hc).mono ?_ ?_ ?_)
    · rintro l u ⟨hfault, hl⟩
      exact ⟨fun e he => hl e (hwrap l e he), hfault⟩
    · rintro u hfault
      exact ⟨fun e he => (by rw [(hfinish u).1] at he; cases he), (hfinish u).2.trans hfault⟩
    · rintro st d u hfault
      exact ⟨fun e he => (by cases he), hfault⟩
  unfold microStep
  cases hpc : s.pc with
  | idle => exact ⟨s, rfl, fun e he => (by rw [hp] at he; cases he), rfl⟩
  | setup pin n st =>
    unfold HeldMatch at hheld
    rw [hpc] at hheld
    obtain ⟨-, hconf⟩ := (hardwareMatches_setup hpc).mp hhw
    refine resolve_runs ((setupStep_clean pin n st hc hheld hconf).mono ?_ ?_ ?_)
    · exact fun l u hu => ⟨fun e he => (by cases he), hu⟩
    · exact fun u hu => ⟨fun e he => (by cases he), hu⟩
    · exact fun _ _ u hu => ⟨fun e he => (by cases he), hu⟩
  | send e => rw [hpc] at hp; cases hp
  | clearAll c =>
    cases c with
    | fill => exact ⟨_, rfl, fun e he => (by cases he; rfl), rfl⟩
    | send e => rw [hpc] at hp; cases hp
  | cleanup c =>
    refine released (fun e he => ?_) (fun l e he => ?_) fun _ => ⟨rfl, rfl⟩
    · rw [hpc, he] at hp
      cases hp
    · obtain h | h | h | h := sendPlace_cases he <;> cases h
      rfl
  | terminate c =>
    refine released (fun e he => ?_) (fun l e he => ?_) fun _ => ⟨rfl, rfl⟩
    · rw [hpc, he] at hp
      cases hp
    · obtain h | h | h | h := sendPlace_cases he <;> cases h
      rfl

/-- From a state in order every micro-step goes on, records nothing, and has loaded what its place says (R290). -/
theorem microStep_goes_on {s : State} (h : InOrder s) :
    ∃ t, microStep s = .next t ∧ TransferLoaded t ∧ t.fault = s.fault := by
  cases hp : sendPlace s.pc with
  | some e => exact microStep_sending h hp
  | none =>
    obtain ⟨-, -, -, hloaded⟩ := id h
    obtain ⟨t, ht, hplace, hfault⟩ := microStep_outside h hp
    have hdma : t.dma = s.dma := congrArg Prod.snd (microStep_dma hp ht)
    have hstopped : s.dma.phase = .stopped := hloaded.stopped (by rw [hp]; simp)
    exact ⟨t, ht, transferLoaded_of_stopped hplace (by rw [hdma]; exact hstopped), hfault⟩

/-- From a state in order the DMA moves a word of the waveform, waits or ends, and records nothing (R184, R290). -/
theorem dmaStep_goes_on {s : State} (h : InOrder s) :
    ∃ t, dmaStep s = .next t ∧ TransferLoaded t ∧ t.fault = s.fault := by
  obtain ⟨hc, -, -, hloaded⟩ := id h
  cases hp : s.dma.phase with
  | stopped => exact ⟨s, dmaStep_stopped hp, hloaded, rfl⟩
  | running =>
    obtain ⟨hplace, r, source, hr, hsource, hwritten, hwords, hnext⟩ := by
      obtain ⟨-, -, hrunning⟩ := hloaded
      exact hrunning hp
    obtain ⟨hholds, htiming⟩ := h.sending hplace
    obtain ⟨r', hr', hspan, hpos, hlt, hlen⟩ := region_spans hc hholds htiming
    obtain rfl : r' = r := Option.some.inj (hr'.symm.trans hr)
    have hat := (transferLoaded_sending hplace).mp hloaded
    have hstage : s.stage = waveform s := hat.1 (by simp)
    rw [← hstage] at hlen
    obtain ⟨-, hcb, hcblen⟩ := supportedCb_of_words (by omega) (by omega) hwords
    have hlength : transferLength s = s.stage.length := by
      unfold transferLength
      omega
    have loaded {t : State} (hpc : t.pc = s.pc) (ht : LoadedAt (.e4 .w1) t) : TransferLoaded t :=
      (transferLoaded_sending (by rw [hpc]; exact hplace)).mpr ht
    by_cases hmore : s.dma.next < s.stage.length
    · have hleft : s.dma.next < transferLength s := by rw [hlength]; exact hmore
      have he : s.stage[s.dma.next]? = some s.stage[s.dma.next] := List.getElem?_eq_getElem hmore
      have hword := hwritten _ _ hmore he
      have haddr : s.dma.cb.source.toNat + 4 * s.dma.next = cellOf r' (cbBytes + 4 * s.dma.next) := by
        obtain ⟨a, ha, haddr⟩ := busAddr_some (hspan cbBytes 1 (by omega))
        obtain rfl : a = source := Option.some.inj (ha.symm.trans hsource)
        rw [hcb, haddr]
        unfold cellOf
        omega
      have hread : busRead (s.dma.cb.source.toNat + 4 * s.dma.next) s = .ok (.word (sourceWord s.stage[s.dma.next])) := by
        rw [haddr]
        exact busRead_word hr (hspan _ _ (by omega)) (by unfold cbBytes; omega) hword
      have hfifo : fifoInBlock s.cfg = true := by
        obtain ⟨-, -, -, -, -, -, -, -, -, -, -, -, -, hl⟩ := (configOk_iff s.cfg).mp hc
        simp only [layoutOk, Bool.and_eq_true] at hl
        exact hl.2
      cases hd : flagDreq s with
      | false => exact ⟨s, dmaStep_wait hp hleft hd, hloaded, rfl⟩
      | true =>
        refine ⟨_, dmaStep_move hp hleft hd hfifo hread, ?_, rfl⟩
        exact loaded rfl ⟨fun _ => hstage, fun x r he => (by cases he),
          fun _ => ⟨rfl, r', source, hr, hsource, hwritten, hwords, hmore⟩⟩
    · have hend : s.dma.next = s.stage.length := by omega
      refine ⟨_, dmaStep_end hp (hend.trans hlength.symm), ?_, rfl⟩
      exact loaded rfl (.of_stopped hstage (fun x r he => by cases he) rfl)

/-- Every agent goes on from a sound state, to a sound state (R290). -/
theorem agentStep_sound {s : State} (a : Agent) (h : Sound s) : ∃ t, agentStep a s = .next t ∧ Sound t := by
  obtain ⟨horder, hquiet, hfault⟩ := h
  obtain ⟨hc, hheld, hhw, hloaded⟩ := id horder
  obtain ⟨t, ht, hl, hf⟩ : ∃ t, agentStep a s = .next t ∧ TransferLoaded t ∧ t.fault = s.fault := by
    by_cases hseq : a = .seq
    · subst hseq
      exact microStep_goes_on horder
    · by_cases hdma : a = .dma
      · subst hdma
        exact dmaStep_goes_on horder
      · obtain ⟨t, ht, hframe⟩ := agentStep_around s hseq hdma
        exact ⟨t, ht, by rw [hframe]; exact hloaded, by rw [hframe]⟩
  obtain ⟨hheld', hquiet'⟩ := agentStep_resources a s t hc ht ⟨hheld, hquiet⟩
  have hcfg : t.cfg = s.cfg := (agentStep_extends ht).cfg
  exact ⟨t, ht, ⟨by rw [hcfg]; exact hc, hheld', agentStep_hardwareMatches a s t hc ht hhw, hl⟩, hquiet', hf.trans hfault⟩

theorem IdleChange.sound {s t : State} (hp : s.pc = .idle) (hi : IdleChange s t) (h : Sound s) : Sound t := by
  obtain ⟨⟨hc, hheld, hhw, hloaded⟩, hquiet, hfault⟩ := h
  have hstopped : s.dma.phase = .stopped := hloaded.stopped (by rw [hp]; simp [sendPlace])
  have hkept : t.dma = s.dma ∧ t.fault = s.fault := by cases hi <;> exact ⟨rfl, rfl⟩
  have hplace : ∀ e, sendPlace t.pc = some e → e = .e1 := by
    intro e he
    have idle {u : State} (hu : u.pc = s.pc) : sendPlace u.pc ≠ some e := by
      rw [hu, hp]
      exact fun he => by cases he
    cases hi with
    | answer input resp hfb => exact absurd he (idle rfl)
    | halt hu => exact absurd he (idle rfl)
    | start hst =>
      generalize s.life = life at hst
      cases hst <;> cases he
      rfl
  refine ⟨⟨by rw [hi.cfg]; exact hc, hi.heldMatch hp hheld, hi.hardwareMatches hp hhw, ?_⟩, ?_, hkept.2.trans hfault⟩
  · exact transferLoaded_of_stopped hplace (by rw [hkept.1]; exact hstopped)
  · exact (quietAt_iff _ _).mp (hi.quiet hp ((quietAt_iff _ _).mpr hquiet))

/-- Agents that each go on from `P` to `P` go on under every schedule (R14). -/
theorem drive_goes_on {P : State → Prop} (hstep : ∀ a s, P s → ∃ t, agentStep a s = .next t ∧ P t) (as : List Agent) :
    ∀ s, P s → ∃ t rest, drive as s = .next (t, rest) := by
  induction as with
  | nil => exact fun s _ => ⟨s, [], rfl⟩
  | cons a as ih =>
    intro s hs
    by_cases hp : s.pc = .idle
    · exact ⟨s, a :: as, drive_idle hp⟩
    · obtain ⟨t, ht, hP⟩ := hstep a s hs
      obtain ⟨u, rest, hu⟩ := ih t hP
      exact ⟨u, rest, (drive_cons hp ht).trans hu⟩

theorem performFrom_goes_on {P : State → Prop} (hstep : ∀ a s, P s → ∃ t, agentStep a s = .next t ∧ P t) {pc : Pc}
    {s : State} (hs : P (s.setPc pc)) : ∃ t, performFrom pc s = .next t := by
  obtain ⟨u, rest, hu⟩ := drive_goes_on hstep s.sched (s.setPc pc) hs
  exact ⟨{ u with sched := rest }, by rw [performFrom, hu]⟩

/-- Drawing changes nothing that soundness speaks of. -/
theorem Sound.drawn {s : State} (h : Sound s) (sched : List Agent) (draws : Nat) :
    Sound { s with sched := sched, draws := draws } := by
  obtain ⟨⟨hc, hheld, hhw, hloaded⟩, hquiet, hfault⟩ := h
  exact ⟨⟨hc, hheld, HardwareMatches.kept (s := s) (.of_hardware rfl) rfl rfl hhw, hloaded⟩, hquiet, hfault⟩

theorem seqStep_sound {s : State} (h : Sound s) :
    (∃ t, seqStep s = .next t) ∨ seqStep s = .refused .transport ∧ s.pc = .idle ∧ ∃ op, decode s.input = .short op := by
  by_cases hp : s.pc = .idle
  · obtain ⟨hrefused, hshort⟩ | ⟨t, -, ht⟩ | ⟨u, pc, hu, hup, hst, he⟩ := seqStep_idle hp
    · exact .inr ⟨hrefused, hp, hshort⟩
    · exact .inl ⟨t, ht⟩
    · have started : Sound (u.setPc pc) := IdleChange.sound hup (.start hst) (hu.sound hp h)
      obtain ⟨t, ht⟩ := performFrom_goes_on (fun a s => agentStep_sound a) started
      exact .inl ⟨t, he.trans ht⟩
  · obtain ⟨t, ht, -⟩ := agentStep_sound .seq h
    exact .inl ⟨t, (if_neg hp).trans ht⟩

theorem step_goes_on {s : State} (h : Sound s) :
    (∃ t, step s = .next t) ∨ step s = .refused .transport ∧ s.pc = .idle ∧ ∃ op, decode s.input = .short op := by
  obtain ⟨sched, draws, hdrawn⟩ := nextAgent_state s
  have hu : Sound (nextAgent s).2 := by rw [hdrawn]; exact h.drawn sched draws
  have hpc : (nextAgent s).2.pc = s.pc := by rw [hdrawn]
  have hinput : (nextAgent s).2.input = s.input := by rw [hdrawn]
  unfold step
  obtain ⟨⟨hc, -⟩, -⟩ := id h
  rw [if_pos hc]
  split
  · next u he =>
    rw [he] at hu hpc hinput
    dsimp only at hu hpc hinput
    rw [← hpc, ← hinput]
    exact seqStep_sound hu
  · next a u hne he =>
    rw [he] at hu
    obtain ⟨t, ht, -⟩ := agentStep_sound a hu
    exact .inl ⟨t, ht⟩

/-- Settles O59: every step goes on or refuses bytes that are no command, and what it reaches is sound. -/
theorem soundStatesNeverStop : Obligations.SoundStatesNeverStop := by
  intro s h
  refine (step_goes_on h).imp_left ?_
  rintro ⟨t, ht⟩
  refine ⟨t, ht, step_keeps (fun _ sched draws hs => hs.drawn sched draws) (fun _ _ hp hi hs => hi.sound hp hs) ?_ ht h⟩
  intro a u v _ hv hu
  obtain ⟨w, hw, hsound⟩ := agentStep_sound a hu
  rw [hw] at hv
  cases hv
  exact hsound

/-! ## The frame of SETUP -/

/-- Every pin's function but that of `pin`'s entry, and every PWM channel but that entry's, is as before (R34, R36). -/
structure PinsKept (pin : Int) (s t : State) : Prop where
  fsel : ∀ p : Nat, (∀ e, lookupPin s.cfg pin = some e → p ≠ e.pin) → readFsel t p = readFsel s p
  gpset : t.gpio.gpset = s.gpio.gpset
  gpclr : t.gpio.gpclr = s.gpio.gpclr
  channel : ∀ c : Channel, (∀ e, lookupPin s.cfg pin = some e → c ≠ e.ch) → t.pwm.channel c = s.pwm.channel c

theorem PinsKept.congr {pin : Int} {s t u : State} (hg : u.gpio = t.gpio) (hp : u.pwm = t.pwm) (h : PinsKept pin s t) :
    PinsKept pin s u := by
  obtain ⟨hf, hset, hclr, hch⟩ := h
  refine ⟨fun p hpin => ?_, by rw [hg]; exact hset, by rw [hg]; exact hclr, fun c hc => by rw [hp]; exact hch c hc⟩
  rw [readFsel, hg]
  exact hf p hpin

theorem PinsKept.of_eq {pin : Int} {s t : State} (hg : t.gpio = s.gpio) (hp : t.pwm = s.pwm) : PinsKept pin s t :=
  PinsKept.congr (t := s) hg hp ⟨fun _ _ => rfl, rfl, rfl, fun _ _ => rfl⟩

theorem PinsKept.trans {pin : Int} {s t u : State} (hcfg : t.cfg = s.cfg) (h : PinsKept pin s t) (h' : PinsKept pin t u) :
    PinsKept pin s u := by
  obtain ⟨hf, hs, hc, hch⟩ := h
  obtain ⟨hf', hs', hc', hch'⟩ := h'
  rw [hcfg] at hf' hch'
  exact ⟨fun p hp => (hf' p hp).trans (hf p hp), hs'.trans hs, hc'.trans hc, fun c hc => (hch' c hc).trans (hch c hc)⟩

/-- A write of the entry's channel leaves the other channel alone (R36). -/
theorem PinsKept.setChannel {pin : Int} {e : PinEntry} {s : State} (he : lookupPin s.cfg pin = some e) (x : PwmChannel) :
    PinsKept pin s { s with pwm := s.pwm.setChannel e.ch x } :=
  ⟨fun _ _ => rfl, rfl, rfl, fun _ hc => Pwm.channel_setChannel_other (hc e he) s.pwm x⟩

/-- CONFIGURE touches no other pin's function and no other channel (R34, R36, R137). -/
theorem configureStep_pins {pin : Int} {e : PinEntry} (k : ConfigureStep) {s : State} (he : lookupPin s.cfg pin = some e) :
    (configureStep e k s).Within (PinsKept pin s) := by
  have same {t : State} (hg : t.gpio = s.gpio) (hp : t.pwm = s.pwm) : PinsKept pin s t := .of_eq hg hp
  unfold configureStep
  cases k with
  | k1 =>
    exact Proc.within_regWrite (same rfl rfl)
      ⟨fun p hp => readFsel_writeFsel_other (hp e he) e.fsel s, rfl, rfl, fun _ _ => rfl⟩
  | k2 => exact Proc.within_regWrite (same rfl rfl) (.setChannel he _)
  | k8 => exact Proc.within_regWrite (same rfl rfl) (.setChannel he _)
  | k9 =>
    exact Proc.within_regWrite (same rfl rfl) ⟨fun _ _ => rfl, rfl, rfl, fun c _ => Pwm.channel_writeDmac _ _ _ _ c⟩
  | k10 =>
    refine Proc.meets_after fun s' hs' => ?_
    obtain ⟨-, ⟨-, rfl⟩ | ⟨-, rfl⟩⟩ := regWrite_cases hs'
    · exact .setChannel he _
    · exact same rfl rfl
  | k3 | k5 =>
    refine Proc.meets_after fun s' hs' => ?_
    obtain ⟨-, -, ⟨-, rfl⟩ | ⟨-, rfl⟩⟩ := cmWrite_cases hs' <;> exact same rfl rfl
  | k6 =>
    refine Proc.meets_after fun s' hs' => ?_
    obtain ⟨-, -, ⟨-, rfl⟩ | ⟨-, rfl⟩⟩ := cmWrite_cases hs' <;> exact same rfl rfl
  | k4 | k7 => exact Proc.within_read (same rfl rfl) fun _ => same rfl rfl
  | k4Busy | k4Time | k7Wait => exact Proc.within_read (same rfl rfl) fun _ => by split <;> exact same rfl rfl

/-- The block's configuration registers and framebuffer. -/
def State.block (s : State) : Int × Channel × Nat × Nat × List Color := (s.pin, s.ch, s.ledCount, s.capacity, s.fb)

/-- A refused lock or map has given the allocation back, and its bytes are gone (R171 A3, A4; log 7). -/
def BytesLost (t : State) : Prop :=
  t.mem = [] ∧ t.plat.alloc = none ∧ t.resp.status = .allocationError ∧ (t.resp.detail = .lock ∨ t.resp.detail = .map)

theorem mapClose_kept (s : State) :
    (mapClose s).block = s.block ∧ (mapClose s).mem = s.mem ∧ (mapClose s).plat.alloc = s.plat.alloc := by
  obtain ⟨-, h⟩ | ⟨-, h⟩ := mapClose_cases s <;> rw [h] <;> exact ⟨rfl, rfl, rfl⟩

@[simp] theorem platClose_mem (s : State) : (platClose s).mem = s.mem := rfl
@[simp] theorem platClose_alloc (s : State) : (platClose s).plat.alloc = s.plat.alloc := rfl
@[simp] theorem platFree_mem (s : State) : (platFree s).mem = [] := rfl
@[simp] theorem platFree_alloc (s : State) : (platFree s).plat.alloc = none := rfl

/-- ALLOCATE stores no byte, and loses the region's only where a lock or a map is refused (R171, log 7). -/
theorem allocateStep_mem (n : Nat) (a : AllocateStep) (s : State) :
    (allocateStep n a s).Meets (fun _ t => t.mem = s.mem) (fun t => t.mem = s.mem)
      (fun st d t => t.mem = s.mem
        ∨ t.mem = [] ∧ t.plat.alloc = none ∧ st = .allocationError ∧ (d = .lock ∨ d = .map)) := by
  unfold allocateStep
  cases a with
  | a0 =>
    dsimp only
    split
    · exact .inl rfl
    · rfl
  | a1 | a2 =>
    refine Proc.meets_ask (fun _ => rfl) (fun _ _ => rfl) fun a _ => ?_
    cases a.ok
    · exact .inl rfl
    · rfl
  | a3 h | a4 h b =>
    refine Proc.meets_ask (fun _ => rfl) (fun _ _ => rfl) fun a _ => ?_
    cases a.ok
    · exact .inr (by simp)
    · rfl
  | a5 h b v => rfl

/-- The PIN_MAP entry a micro-step of SETUP carries. -/
def setupEntry : SetupStep → Option PinEntry
  | .s1 => none
  | .s2 => none
  | .s3 e => some e
  | .s4 e _ => some e
  | .s5 e _ => some e
  | .s6 e _ => some e
  | .s7 e => some e

/-- The entry that the micro-step carries, if any, is the one S2 finds for the pin (R212 S2). -/
def EntryFound (c : Config) (pin : Int) (st : SetupStep) : Prop := ∀ e, setupEntry st = some e → lookupPin c pin = some e

/-- A micro-step of SETUP keeps the other pins; until its commit it keeps the block's registers and framebuffer; and it
keeps memory, unless it gives the allocation back (R34, R36, R171, R213). -/
theorem setupStep_spares (pin n : Int) (st : SetupStep) {s : State} (h : EntryFound s.cfg pin st) :
    (setupStep pin n st s).Meets
      (fun l t => PinsKept pin s t ∧ t.block = s.block ∧ t.mem = s.mem ∧ EntryFound s.cfg pin l)
      (fun t => PinsKept pin s t ∧ t.life = .ready ∧ t.mem = s.mem)
      (fun st d t => PinsKept pin s t ∧ t.block = s.block ∧ (t.mem = s.mem ∨ BytesLost (raiseError st d t))) := by
  have same {t : State} (hg : t.gpio = s.gpio) (hp : t.pwm = s.pwm) : PinsKept pin s t := .of_eq hg hp
  have closed {t : State} (ht : PinsKept pin s t) : PinsKept pin s (mapClose t) := by
    have hhw := mapClose_hardware t
    simp only [State.hardware, Prod.mk.injEq] at hhw
    obtain ⟨-, -, -, hg, -, -, hp⟩ := hhw
    exact ht.congr hg hp
  cases st with
  | s1 =>
    simp only [setupStep]
    split
    · exact ⟨same rfl rfl, rfl, rfl, h⟩
    · exact ⟨same rfl rfl, rfl, .inl rfl⟩
  | s2 =>
    simp only [setupStep]
    split
    · exact ⟨same rfl rfl, rfl, .inl rfl⟩
    · next e he => exact ⟨same rfl rfl, rfl, rfl, fun e' he' => by cases he'; exact he⟩
  | s3 e =>
    simp only [setupStep]
    split
    · exact ⟨same rfl rfl, rfl, .inl rfl⟩
    · exact ⟨same rfl rfl, rfl, rfl, h⟩
  | s4 e m =>
    refine Proc.meets_call (Proc.Meets.mono (mapStep_frame m s) (fun l t hf => ?_) (fun t hf => ?_) fun _ _ t hf => ?_)
    · rw [hf]
      exact ⟨same rfl rfl, rfl, rfl, h⟩
    · rw [hf]
      exact ⟨same rfl rfl, rfl, rfl, h⟩
    · rw [hf]
      exact ⟨same rfl rfl, rfl, .inl rfl⟩
  | s5 e k =>
    have kept {t : State} (hf : ConfigureFrame s t) : t.block = s.block ∧ t.mem = s.mem := by
      rw [hf]
      exact ⟨rfl, rfl⟩
    have hpins : (configureStep e k s).Within (PinsKept pin s) := configureStep_pins k (h e rfl)
    refine Proc.meets_callUndo ((Proc.Meets.and hpins (configureStep_frame e k s)).mono ?_ ?_ ?_)
    · exact fun l t ⟨hp, hf⟩ => ⟨hp, (kept hf).1, (kept hf).2, h⟩
    · exact fun t ⟨hp, hf⟩ => ⟨hp, (kept hf).1, (kept hf).2, h⟩
    · rintro st d t ⟨hp, hf⟩
      obtain ⟨hblock, hmem, -⟩ := mapClose_kept t
      exact ⟨closed hp, hblock.trans (kept hf).1, .inl (hmem.trans (kept hf).2)⟩
  | s6 e a =>
    have kept {t : State} (hf : AllocateFrame s t) : PinsKept pin s t ∧ t.block = s.block := by
      rw [hf]
      exact ⟨same rfl rfl, rfl⟩
    refine Proc.meets_callUndo (((allocateStep_mem _ a s).and (allocateStep_frame _ a s)).mono ?_ ?_ ?_)
    · exact fun l t ⟨hm, hf⟩ => ⟨(kept hf).1, (kept hf).2, hm, h⟩
    · exact fun t ⟨hm, hf⟩ => ⟨(kept hf).1, (kept hf).2, hm, h⟩
    · rintro st d t ⟨hm, hf⟩
      obtain ⟨hblock, hmem, halloc⟩ := mapClose_kept t
      refine ⟨closed (kept hf).1, hblock.trans (kept hf).2, ?_⟩
      rw [hmem]
      refine hm.imp_right ?_
      rintro ⟨hnil, hnone, hst, hd⟩
      exact ⟨hmem.trans hnil, halloc.trans hnone, hst, hd⟩
  | s7 e => exact ⟨same rfl rfl, rfl, rfl⟩

/-! ### Under every schedule -/

/-- What SETUP and the other agents leave alone while it runs (R34, R36, R137, R213). -/
structure SetupSpares (pin : Int) (s t : State) : Prop where
  cfg : t.cfg = s.cfg
  stage : t.stage = s.stage
  input : t.input = s.input
  term : s.termPending = true → t.termPending = true
  pins : PinsKept pin s t
  conblkAd : t.dma.conblkAd = s.dma.conblkAd
  priority : t.dma.priority = s.dma.priority
  err : t.dma.err = s.dma.err

theorem SetupSpares.trans {pin : Int} {s t u : State} (h : SetupSpares pin s t) (h' : SetupSpares pin t u) :
    SetupSpares pin s u where
  cfg := h'.cfg.trans h.cfg
  stage := h'.stage.trans h.stage
  input := h'.input.trans h.input
  term hp := h'.term (h.term hp)
  pins := h.pins.trans h.cfg h'.pins
  conblkAd := h'.conblkAd.trans h.conblkAd
  priority := h'.priority.trans h.priority
  err := h'.err.trans h.err

theorem SetupSpares.of_setupKept {pin : Int} {s t : State} (hk : t.setupKept = s.setupKept) (hp : PinsKept pin s t) :
    SetupSpares pin s t := by
  simp only [State.setupKept, State.surroundings, Prod.mk.injEq] at hk
  obtain ⟨hcfg, hstage, hdma, -, -, -, hterm, hinput, -⟩ := hk
  exact ⟨hcfg, hstage, hinput, fun h => hterm.trans h, hp, by rw [hdma], by rw [hdma], by rw [hdma]⟩

/-- While a command is in progress the other agents spare what SETUP does: HOST hands nothing over, and the channel
keeps its registers (R41, R210). -/
theorem agentStep_spares {a : Agent} {s t : State} (pin : Int) (hseq : a ≠ .seq) (hp : s.pc ≠ .idle)
    (h : agentStep a s = .next t) : SetupSpares pin s t := by
  have hframe := agentStep_frame hseq h
  obtain ⟨-, -, hhost, hnothost, -, -, -, -, hdma, -⟩ := agentsOwnTheirState a s t h
  have hinput : t.input = s.input := by
    by_cases ha : a = .host
    · obtain ⟨-, -, hin⟩ := hhost ha
      exact hin.resolve_right fun hidle => hp hidle.1
    · obtain ⟨-, hin, -⟩ := hnothost ha
      exact hin
  have hregs : (t.dma.conblkAd, t.dma.priority, t.dma.err) = (s.dma.conblkAd, s.dma.priority, s.dma.err) := by
    by_cases ha : a = .dma
    · subst ha
      obtain rfl | ⟨w, -, -, -, -, -, rfl⟩ | ⟨-, rfl⟩ | ⟨-, -, rfl⟩ | ⟨-, -, rfl⟩ := dmaStep_cases h <;> rfl
    · rw [hdma ha hseq]
  simp only [Prod.mk.injEq] at hregs
  obtain ⟨hconblk, hprio, herr⟩ := hregs
  exact ⟨by rw [hframe], by rw [hframe], hinput, (agentStep_extends h).term, .of_eq (by rw [hframe]) (by rw [hframe]),
    hconblk, hprio, herr⟩

/-- Where a SETUP that began in `s` stands: still at one of its micro-steps with the block's registers and memory as
they were, or ended. -/
def SetupStands (pin n : Int) (s t : State) : Prop :=
  (∃ st, t.pc = .setup pin n st ∧ EntryFound s.cfg pin st ∧ t.block = s.block ∧ t.mem = s.mem)
    ∨ t.pc = .idle ∧ (t.life ≠ .ready → t.block = s.block) ∧ (t.mem = s.mem ∨ BytesLost t)

theorem SetupStands.kept {pin n : Int} {s t : State} (h : SetupStands pin n s t) :
    (t.life ≠ .ready → t.block = s.block) ∧ (t.mem = s.mem ∨ t.pc = .idle ∧ BytesLost t) := by
  obtain ⟨st, -, -, hblock, hmem⟩ | ⟨hpc, hblock, hmem⟩ := h
  · exact ⟨fun _ => hblock, .inl hmem⟩
  · exact ⟨hblock, hmem.imp_right fun hlost => ⟨hpc, hlost⟩⟩

/-- One step of an agent takes a SETUP in progress on, and spares what SETUP does. -/
theorem agentStep_setup {pin n : Int} {a : Agent} {s t u : State} (hp : t.pc ≠ .idle)
    (ht : SetupSpares pin s t ∧ SetupStands pin n s t) (h : agentStep a t = .next u) :
    SetupSpares pin s u ∧ SetupStands pin n s u := by
  obtain ⟨hspares, ⟨st, hpc, hentry, hblock, hmem⟩ | ⟨hidle, -⟩⟩ := ht
  · by_cases hseq : a = .seq
    · subst hseq
      have hkept := microStep_setupKept h hpc
      rw [← hspares.cfg] at hentry
      simp only [agentStep, microStep, hpc] at h
      have hfound {l : SetupStep} (hl : EntryFound t.cfg pin l) : EntryFound s.cfg pin l := by
        rw [← hspares.cfg]
        exact hl
      obtain ⟨hpins, hstands⟩ : PinsKept pin t u ∧ SetupStands pin n s u := by
        refine resolve_meets (P := fun v => PinsKept pin t v ∧ SetupStands pin n s v) h
          ((setupStep_spares pin n st hentry).mono ?_ ?_ ?_)
        · rintro l v ⟨hv, hb, hm, hl⟩
          exact ⟨.congr (t := v) rfl rfl hv, .inl ⟨l, rfl, hfound hl, hb.trans hblock, hm.trans hmem⟩⟩
        · rintro v ⟨hv, hl, hm⟩
          exact ⟨.congr (t := v) rfl rfl hv, .inr ⟨rfl, fun hne => absurd hl hne, .inl (hm.trans hmem)⟩⟩
        · rintro status d v ⟨hv, hb, hm⟩
          exact ⟨.congr (t := v) rfl rfl hv, .inr ⟨rfl, fun _ => hb.trans hblock, hm.imp_left fun h => h.trans hmem⟩⟩
      exact ⟨hspares.trans (.of_setupKept hkept hpins), hstands⟩
    · have hframe := agentStep_frame hseq h
      refine ⟨hspares.trans (agentStep_spares pin hseq hp h), .inl ⟨st, by rw [hframe]; exact hpc, hentry, ?_, ?_⟩⟩
      · rw [hframe]
        exact hblock
      · rw [hframe]
        exact hmem
  · exact absurd hidle hp

/-- What a run under a schedule keeps: what each agent's step keeps while the command is in progress (R14). -/
theorem drive_keeps_running {P : State → Prop}
    (hstep : ∀ a s t, s.pc ≠ .idle → P s → agentStep a s = .next t → P t) (as : List Agent) :
    ∀ (s t : State) (rest : List Agent), P s → drive as s = .next (t, rest) → P t := by
  induction as with
  | nil => intro s t rest hs h; cases h; exact hs
  | cons a as ih =>
    intro s t rest hs h
    by_cases hp : s.pc = .idle
    · rw [drive_idle hp] at h
      cases h
      exact hs
    · unfold drive at h
      rw [if_neg hp] at h
      split at h
      · next u hu => exact ih u t rest (hstep a s u hp hs hu) h
      · cases h
      · cases h

/-- A SETUP that is performed runs from S1 (R211, R212). -/
theorem performFrom_setup {pin n : Int} {s t : State} (h : performFrom (.setup pin n .s1) s = .next t) :
    SetupSpares pin s t ∧ SetupStands pin n s t := by
  have begun : SetupSpares pin s (s.setPc (.setup pin n .s1)) ∧ SetupStands pin n s (s.setPc (.setup pin n .s1)) :=
    ⟨.of_setupKept rfl (.of_eq rfl rfl), .inl ⟨.s1, rfl, (fun e he => by cases he), rfl, rfl⟩⟩
  unfold performFrom at h
  split at h
  · next u rest hu =>
    cases h
    obtain ⟨hspares, hstands⟩ :=
      drive_keeps_running (fun _ _ _ hp hv hw => agentStep_setup hp hv hw) s.sched _ u rest begun hu
    exact ⟨hspares.trans (.of_setupKept rfl (.of_eq rfl rfl)), hstands⟩
  · cases h
  · cases h

/-- Settles O37: the gate's answer writes only the response, and a SETUP that is performed keeps `SetupSpares` and
`SetupStands` under every schedule. -/
theorem setupFrame : Obligations.SetupFrame := by
  intro s t pin n h
  obtain ⟨hspares, hblock, hmem⟩ : SetupSpares pin s t ∧ (t.life ≠ .ready → t.block = s.block)
      ∧ (t.mem = s.mem ∨ t.pc = .idle ∧ BytesLost t) := by
    obtain ⟨-, ⟨-, hrun⟩ | ⟨st, d, -, rfl⟩⟩ := dispatch_next (gate := gateSetup) h
    · obtain ⟨hspares, hstands⟩ := performFrom_setup hrun
      exact ⟨hspares, hstands.kept⟩
    · exact ⟨.of_setupKept rfl (.of_eq rfl rfl), fun _ => rfl, .inl rfl⟩
  obtain ⟨hcfg, hstage, hinput, hterm, ⟨hfsel, hset, hclr, hch⟩, hconblk, hprio, herr⟩ := hspares
  refine ⟨hcfg, hstage, hinput, hterm, hfsel, hset, hclr, hch, hconblk, hprio, herr, fun hne => ?_, hmem.imp_right ?_⟩
  · have hkept := hblock hne
    simp only [State.block, Prod.mk.injEq] at hkept
    exact hkept
  · rintro ⟨hpc, hnil, hnone, hst, hd⟩
    exact ⟨hnil, hpc, hnone, hst, hd⟩

end Sys2Proof.Machine

/-! Settles memory's statements (20_memory.md). SUPPORT first: the canonical form and the single-writer rule, each
procedure by procedure; the size of the region; a word's bytes in the region; agents in order under every schedule;
what a misused access does. -/

namespace Sys2Proof.Machine

/-! ## The canonical form of memory -/

/-- Memory is in canonical form (log 7). -/
abbrev Canonical (s : State) : Prop := Memory.wf s.mem = true

theorem Canonical.congr {s t : State} (hm : t.mem = s.mem) (h : Canonical s) : Canonical t := by
  rw [Canonical, hm]
  exact h

theorem csWrite_mem {p : Nat} {s s' : State} (h : csWrite p s = .ok s') : s'.mem = s.mem := by
  obtain ⟨-, ⟨-, rfl⟩ | ⟨-, h⟩⟩ := csWrite_cases h
  · rfl
  · obtain ⟨-, rfl⟩ | ⟨-, rfl⟩ | ⟨_, -, -, rfl⟩ | ⟨_, -, -, rfl⟩ := dmaStart_cases h <;> rfl

/-- X3 and X4 are the only micro-steps that write the region, each through `MemWrite` (R178). -/
theorem transmitStep_canonical (x : TransmitStep) {s : State} (h : Canonical s) :
    (transmitStep x s).Within Canonical := by
  have store {off n : Nat} {v : Word} {l : TransmitStep} :
      (Proc.after (memWrite off n v s) (.goto l)).Within Canonical :=
    Proc.meets_after fun _ hw => memWrite_wf hw h
  cases x with
  | x1 | x2 => simp only [transmitStep]; split <;> exact h
  | x3 i =>
    simp only [transmitStep]
    split
    · exact h
    · exact store
  | x4 j =>
    simp only [transmitStep]
    split
    · trivial
    · split
      · exact h
      · exact store
  | x5 => exact Proc.within_regWrite h h
  | x6 =>
    simp only [transmitStep]
    split
    · trivial
    · exact Proc.within_regWrite h h
  | x7 =>
    refine Proc.meets_after fun u hw => ?_
    have kept : Canonical u := h.congr (csWrite_mem hw)
    exact kept

theorem waitStep_canonical (w : WaitStep) {s : State} (h : Canonical s) : (waitStep w s).Within Canonical := by
  refine (waitStep_meets w s).mono ?_ ?_ fun _ _ _ hf => hf.elim
  · rintro l t (⟨-, rfl | rfl⟩ | ⟨-, -, -, rfl⟩) <;> exact h
  · rintro t ⟨-, -, rfl⟩
    exact h

theorem sendStep_canonical (e : SendStep) {s : State} (h : Canonical s) : (sendStep e s).Within Canonical := by
  cases e with
  | e1 => exact h
  | e2 w | e4 w => exact Proc.within_call (waitStep_canonical w h) fun _ ht => ht
  | e3 x => exact Proc.within_call (transmitStep_canonical x h) fun _ ht => ht

theorem clearStep_canonical (c : ClearStep) {s : State} (h : Canonical s) : (clearStep c s).Within Canonical := by
  cases c with
  | fill => exact h
  | send e => exact Proc.within_call (sendStep_canonical e h) fun _ ht => ht

/-- RELEASE loses the region's bytes only where it frees the allocation (R188 L4, log 7). -/
theorem releaseStep_canonical (l : ReleaseStep) {s : State} (h : Canonical s) : (releaseStep l s).Within Canonical := by
  unfold releaseStep
  split
  · cases l with
    | l1 w =>
      dsimp only
      split
      · exact Proc.within_call (waitStep_canonical w h) fun _ ht => ht
      · exact h
    | l2 | l3 | l5 => exact h
    | l4 => exact platFree_wf s
  · exact h

theorem mapClose_canonical {s : State} (h : Canonical s) : Canonical (mapClose s) := by
  obtain ⟨-, hmem, -⟩ := mapClose_kept s
  exact h.congr hmem

theorem cleanupStep_canonical (c : CleanupStep) {s : State} (h : Canonical s) : (cleanupStep c s).Within Canonical := by
  cases c with
  | c1 a => exact Proc.within_call (clearStep_canonical a h) fun _ ht => ht
  | c2 l => exact Proc.within_call (releaseStep_canonical l h) fun _ ht => ht
  | c3 => exact mapClose_canonical h
  | c4 => exact h

theorem allocateStep_canonical (n : Nat) (a : AllocateStep) {s : State} (h : Canonical s) :
    (allocateStep n a s).Within Canonical := by
  refine (allocateStep_mem n a s).mono (fun _ _ => h.congr) (fun _ => h.congr) ?_
  rintro st d t (hm | ⟨hnil, -⟩)
  · exact h.congr hm
  · rw [Canonical, hnil]
    exact Memory_wf_nil

/-- Of SETUP's procedures only ALLOCATE touches memory: it frees what it cannot lock or map (R171). -/
theorem setupStep_canonical (pin n : Int) (st : SetupStep) {s : State} (h : Canonical s) :
    (setupStep pin n st s).Within Canonical := by
  cases st with
  | s1 | s2 | s3 e => simp only [setupStep]; split <;> exact h
  | s4 e m => exact Proc.within_call ((mapStep_frame m s).mono fun t hf => by rw [hf]; exact h) fun _ ht => ht
  | s5 e k =>
    exact Proc.within_callUndo ((configureStep_frame e k s).mono fun t hf => by rw [hf]; exact h)
      (fun _ => mapClose_canonical) fun _ ht => ht
  | s6 e a => exact Proc.within_callUndo (allocateStep_canonical _ a h) (fun _ => mapClose_canonical) fun _ ht => ht
  | s7 e => exact h

theorem microStep_canonical {s t : State} (hm : microStep s = .next t) (h : Canonical s) : Canonical t := by
  have ended {α : Type} {wrap : α → Pc} {finish : State → State} {p : Proc α}
      (hr : resolve wrap finish p = .next t) (hf : ∀ u, Canonical u → Canonical (finish u))
      (hp : p.Within Canonical) : Canonical t :=
    resolve_within hr hp (fun _ _ hu => hu) hf fun _ _ _ hu => hu
  unfold microStep at hm
  split at hm
  · cases hm
    exact h
  · exact ended hm (fun _ hu => hu) (setupStep_canonical _ _ _ h)
  · exact ended hm (fun _ hu => hu) (sendStep_canonical _ h)
  · exact ended hm (fun _ hu => hu) (clearStep_canonical _ h)
  · exact ended hm (fun _ hu => hu) (cleanupStep_canonical _ h)
  · exact ended hm (fun _ hu => hu) (cleanupStep_canonical _ h)

/-- Of the agents only the sequencer writes memory (R75). -/
theorem agentStep_canonical {a : Agent} {s t : State} (ha : agentStep a s = .next t) (h : Canonical s) :
    Canonical t := by
  by_cases hseq : a = .seq
  · subst hseq
    exact microStep_canonical ha h
  · rw [agentStep_frame hseq ha]
    exact h

/-- Settles O54: the canonical form is kept by drawing, by the idle sequencer and by every agent. -/
theorem memoryStaysCanonical : Obligations.MemoryStaysCanonical := by
  intro s t hs h
  refine step_keeps (P := Canonical) (fun _ _ _ hu => hu) (fun u v _ hi hu => ?_)
    (fun _ _ _ _ ha hu => agentStep_canonical ha hu) h hs
  cases hi <;> exact hu

/-! ## The single writer -/

/-- No region write was asked for while the DMA ran, and where `quiet` says so the channel is stopped (R75). -/
def SingleWriterAt (quiet : Prop) (s : State) : Prop :=
  s.fault ≠ some .dmaRace ∧ (quiet → s.dma.phase = .stopped)

theorem singleWriter_iff (s : State) : SingleWriter s ↔ SingleWriterAt (QuietPlace s) s := Iff.rfl

section Rules
variable {q q' : Prop} {s t : State}

theorem SingleWriterAt.weaken (hq : q' → q) (h : SingleWriterAt q s) : SingleWriterAt q' s :=
  ⟨h.1, fun hq' => h.2 (hq hq')⟩

/-- Where nothing must be quiet, only the model fault counts. -/
theorem SingleWriterAt.anywhere (h : SingleWriterAt q s) : SingleWriterAt False s := h.weaken False.elim

theorem SingleWriterAt.congr (hk : (t.dma, t.fault) = (s.dma, s.fault)) (h : SingleWriterAt q s) :
    SingleWriterAt q t := by
  obtain ⟨hdma, hfault⟩ := Prod.mk.inj hk
  unfold SingleWriterAt
  rw [hdma, hfault]
  exact h

/-- A model fault other than DMA_RACE is no race, whether or not it is the first. -/
theorem SingleWriterAt.markFault {f : ModelFault} (hf : f ≠ .dmaRace) (h : SingleWriterAt q s) :
    SingleWriterAt q (s.markFault f) := by
  refine ⟨?_, h.2⟩
  rw [State.markFault_fault]
  cases hs : s.fault with
  | none => simpa using hf
  | some g => exact hs ▸ h.1

end Rules

/-- A region write while the channel is stopped records no race (R71, R75). -/
theorem memWrite_singleWriter {off n : Nat} {v : Word} {s s' : State} (h : SingleWriterAt True s)
    (hw : memWrite off n v s = .ok s') : SingleWriterAt True s' := by
  obtain ⟨r, -, -, ⟨-, rfl⟩ | ⟨-, -, hrun, -⟩ | ⟨-, -, -, rfl⟩⟩ := memWrite_cases hw
  · exact h.markFault (by decide)
  · rw [h.2 trivial] at hrun
    cases hrun
  · exact h

/-- A write of CS may start the channel, and records no race (R184, R185). -/
theorem csWrite_singleWriter {p : Nat} {q : Prop} {s s' : State} (h : SingleWriterAt q s)
    (hw : csWrite p s = .ok s') : SingleWriterAt False s' := by
  obtain ⟨-, ⟨-, rfl⟩ | ⟨-, hs⟩⟩ := csWrite_cases hw
  · exact h.anywhere.markFault (by decide)
  · obtain ⟨-, rfl⟩ | ⟨-, rfl⟩ | ⟨cb, -, -, rfl⟩ | ⟨cb, -, -, rfl⟩ := dmaStart_cases hs
    · exact ⟨h.1, False.elim⟩
    · exact SingleWriterAt.markFault (s := writePriority p s) (by decide) ⟨h.1, False.elim⟩
    · exact ⟨h.1, False.elim⟩
    · exact SingleWriterAt.markFault (by decide) ⟨h.1, False.elim⟩

/-- TRANSMIT writes the region and the channel's registers with the channel stopped, and starts it last (R75, R178). -/
theorem transmitStep_singleWriter (x : TransmitStep) {s : State} (h : SingleWriterAt True s) :
    (transmitStep x s).Meets (fun _ => SingleWriterAt True) (SingleWriterAt False) (fun _ _ => SingleWriterAt True) := by
  have store {off n : Nat} {v : Word} {l : TransmitStep} :
      (Proc.after (memWrite off n v s) (.goto l)).Meets (fun _ => SingleWriterAt True) (SingleWriterAt False)
        (fun _ _ => SingleWriterAt True) :=
    Proc.meets_after fun _ hw => memWrite_singleWriter h hw
  have reg {r : Reg} {eff : State → State} {l : TransmitStep} (he : SingleWriterAt True (eff s)) :
      (Proc.after (regWrite r eff s) (.goto l)).Meets (fun _ => SingleWriterAt True) (SingleWriterAt False)
        (fun _ _ => SingleWriterAt True) :=
    Proc.meets_after fun _ hw => by
      obtain ⟨-, ⟨-, rfl⟩ | ⟨-, rfl⟩⟩ := regWrite_cases hw
      · exact he
      · exact h.markFault (by decide)
  cases x with
  | x1 | x2 =>
    simp only [transmitStep]
    split <;> exact h
  | x3 i =>
    simp only [transmitStep]
    split
    · exact h
    · exact store
  | x4 j =>
    simp only [transmitStep]
    split
    · trivial
    · split
      · exact h
      · exact store
  | x5 => exact reg h
  | x6 =>
    simp only [transmitStep]
    split
    · trivial
    · exact reg h
  | x7 =>
    refine Proc.meets_after fun u hw => ?_
    have started : SingleWriterAt False u := csWrite_singleWriter h hw
    exact started

/-- WAIT_IDLE passes W1 only having seen the channel stopped (R181). -/
theorem waitStep_singleWriter (w : WaitStep) {s : State} (h : SingleWriterAt (w = .w2) s) :
    (waitStep w s).Meets (fun l t => SingleWriterAt (l = .w2) t) (SingleWriterAt True) (fun _ _ _ => False) := by
  refine (waitStep_meets w s).mono ?_ ?_ fun _ _ _ hf => hf
  · rintro l t (⟨rfl, rfl | rfl⟩ | ⟨-, -, hp, rfl⟩)
    · exact h
    · exact h.markFault (by decide)
    · exact ⟨h.1, fun _ => hp⟩
  · rintro t ⟨rfl, -, rfl⟩
    exact h.weaken fun _ => rfl

theorem sendQuiet_e2 (w : WaitStep) : sendQuiet (.e2 w) ↔ w = .w2 := by cases w <;> simp [sendQuiet]
theorem sendQuiet_e4 (w : WaitStep) : sendQuiet (.e4 w) ↔ w = .w2 := by cases w <;> simp [sendQuiet]

/-- SEND keeps the channel stopped from WAIT_IDLE's W1 to TRANSMIT's X7 (R175, R221, R222 (a)). -/
theorem sendStep_singleWriter (e : SendStep) {s : State} (h : SingleWriterAt (sendQuiet e) s) :
    (sendStep e s).Meets (fun l => SingleWriterAt (sendQuiet l)) (SingleWriterAt False)
      (fun _ _ => SingleWriterAt False) := by
  cases e with
  | e1 => exact h
  | e2 w =>
    rw [sendQuiet_e2] at h
    refine Proc.meets_call ((waitStep_singleWriter w h).mono (fun l t ht => ?_) (fun _ ht => ht) fun _ _ _ hf => hf.elim)
    rw [sendQuiet_e2]
    exact ht
  | e3 x =>
    exact Proc.meets_call ((transmitStep_singleWriter x h).mono (fun _ _ ht => ht) (fun _ ht => ht)
      fun _ _ _ ht => ht.anywhere)
  | e4 w =>
    rw [sendQuiet_e4] at h
    refine Proc.meets_call ((waitStep_singleWriter w h).mono (fun l t ht => ?_) (fun _ ht => ht.anywhere)
      fun _ _ _ hf => hf.elim)
    rw [sendQuiet_e4]
    exact ht

theorem clearStep_singleWriter (c : ClearStep) {s : State} (h : SingleWriterAt (clearQuiet c) s) :
    (clearStep c s).Meets (fun l => SingleWriterAt (clearQuiet l)) (SingleWriterAt False)
      (fun _ _ => SingleWriterAt False) := by
  cases c with
  | fill => exact h
  | send e => exact Proc.meets_call (sendStep_singleWriter e h)

/-- RELEASE waits for the channel where the window is mapped, and then gives the region back (R188, R325). -/
theorem releaseStep_singleWriter (l : ReleaseStep) {s : State} (h : SingleWriterAt (cleanupQuiet s (.c2 l)) s) :
    (releaseStep l s).Meets (fun l t => SingleWriterAt (cleanupQuiet t (.c2 l)) t) (SingleWriterAt False)
      (fun _ _ => SingleWriterAt False) := by
  have waiting (w : WaitStep) (t : State) : cleanupQuiet t (.c2 (.l1 w)) ↔ w = .w2 := by cases w <;> simp [cleanupQuiet]
  unfold releaseStep
  split
  · cases l with
    | l1 w =>
      rw [waiting] at h
      dsimp only
      split
      · refine Proc.meets_call ((waitStep_singleWriter w h).mono (fun l t ht => ?_)
          (fun _ ht => ht.weaken fun _ => trivial) fun _ _ _ hf => hf.elim)
        rw [waiting]
        exact ht
      · next hm => exact h.weaken fun hq => absurd hq hm
    | l2 | l3 | l4 => exact h
    | l5 => exact ⟨h.1, False.elim⟩
  · exact h.anywhere

theorem mapClose_dma (s : State) : (mapClose s).dma = s.dma :=
  congrArg Prod.snd (channel_of_setupKept (mapClose_setupKept s))

theorem SingleWriterAt.mapClose {q : Prop} {s : State} (h : SingleWriterAt q s) : SingleWriterAt q (mapClose s) :=
  h.congr (by rw [mapClose_dma, mapClose_fault])

theorem cleanupStep_singleWriter (c : CleanupStep) {s : State} (h : SingleWriterAt (cleanupQuiet s c) s) :
    (cleanupStep c s).Meets (fun l t => SingleWriterAt (cleanupQuiet t l) t) (SingleWriterAt False)
      (fun _ _ => SingleWriterAt False) := by
  cases c with
  | c1 a => exact Proc.meets_call (clearStep_singleWriter a h)
  | c2 l => exact Proc.meets_call (releaseStep_singleWriter l h)
  | c3 => exact h.mapClose
  | c4 => exact h

/-- CONFIGURE accesses registers only: what it may record is no race (R63, R137). -/
theorem configureStep_singleWriter (e : PinEntry) (k : ConfigureStep) {s : State} (h : SingleWriterAt False s) :
    (configureStep e k s).Within (SingleWriterAt False) := by
  have fault : SingleWriterAt False (s.markFault .regOutOfBlock) := h.markFault (by decide)
  unfold configureStep
  cases k with
  | k1 | k2 | k8 | k9 => exact Proc.within_regWrite fault h
  | k10 =>
    refine Proc.meets_after fun u hw => ?_
    obtain ⟨-, ⟨-, rfl⟩ | ⟨-, rfl⟩⟩ := regWrite_cases hw
    · exact h
    · exact fault
  | k3 | k5 | k6 =>
    refine Proc.meets_after fun u hw => ?_
    obtain ⟨-, -, ⟨-, rfl⟩ | ⟨-, rfl⟩⟩ := cmWrite_cases hw
    · exact h
    · exact fault
  | k4 | k7 => exact Proc.within_read fault fun _ => h
  | k4Busy | k4Time | k7Wait => exact Proc.within_read fault fun _ => by split <;> exact h

/-- SETUP never writes the region, and its register accesses record no race (R137, R212). -/
theorem setupStep_singleWriter (pin n : Int) (st : SetupStep) {s : State} (h : SingleWriterAt False s) :
    (setupStep pin n st s).Within (SingleWriterAt False) := by
  cases st with
  | s1 | s2 | s3 e => simp only [setupStep]; split <;> exact h
  | s4 e m => exact Proc.within_call ((mapStep_frame m s).mono fun t hf => by rw [hf]; exact h) fun _ ht => ht
  | s5 e k =>
    exact Proc.within_callUndo (configureStep_singleWriter e k h) (fun _ ht => ht.mapClose) fun _ ht => ht
  | s6 e a =>
    exact Proc.within_callUndo ((allocateStep_frame _ a s).mono fun t hf => by rw [hf]; exact h)
      (fun _ ht => ht.mapClose) fun _ ht => ht
  | s7 e => exact h

theorem microStep_singleWriter {s t : State} (hm : microStep s = .next t) (h : SingleWriter s) : SingleWriter t := by
  have place := (singleWriter_iff s).mp h
  unfold QuietPlace at place
  unfold microStep at hm
  cases hp : s.pc with
  | idle =>
    rw [hp] at hm
    cases hm
    exact h
  | setup pin n st =>
    rw [hp] at hm place
    exact resolve_meets (P := SingleWriter) hm (setupStep_singleWriter pin n st place)
  | send e =>
    rw [hp] at hm place
    exact resolve_meets (P := SingleWriter) hm (sendStep_singleWriter e place)
  | clearAll c =>
    rw [hp] at hm place
    exact resolve_meets (P := SingleWriter) hm (clearStep_singleWriter c place)
  | cleanup c =>
    rw [hp] at hm place
    exact resolve_meets (P := SingleWriter) hm (cleanupStep_singleWriter c place)
  | terminate c =>
    rw [hp] at hm place
    exact resolve_meets (P := SingleWriter) hm (cleanupStep_singleWriter c place)

/-- Of the other agents only the DMA touches its channel, and it never starts it (R75, R184). -/
theorem agentStep_singleWriter {a : Agent} {s t : State} (ha : agentStep a s = .next t) (h : SingleWriter s) :
    SingleWriter t := by
  by_cases hseq : a = .seq
  · subst hseq
    exact microStep_singleWriter ha h
  · by_cases hdma : a = .dma
    · subst hdma
      obtain rfl | ⟨w, -, -, -, -, -, rfl⟩ | ⟨-, rfl⟩ | ⟨-, -, rfl⟩ | ⟨-, -, rfl⟩ := dmaStep_cases ha
      · exact h
      · exact h
      · exact SingleWriterAt.markFault (by decide) h
      · exact SingleWriterAt.markFault (by decide) h
      · exact ⟨h.1, fun _ => rfl⟩
    · obtain ⟨u, hu, hframe⟩ := agentStep_around s hseq hdma
      cases hu.symm.trans ha
      rw [hframe]
      exact h

/-- No procedure begins at a place that must be quiet. -/
theorem IdleChange.singleWriter {s t : State} (hp : s.pc = .idle) (hi : IdleChange s t) (h : SingleWriter s) :
    SingleWriter t := by
  have loud : ¬ QuietPlace t := by
    unfold QuietPlace
    cases hi with
    | answer | halt => dsimp only; rw [hp]; exact id
    | start hst =>
      generalize s.life = life at hst
      cases hst <;> exact id
  refine ⟨?_, fun hq => absurd hq loud⟩
  cases hi <;> exact h.1

/-- Settles O57: the rule is kept by drawing, by the idle sequencer and by every agent. -/
theorem singleWriterAlways : Obligations.SingleWriterAlways := by
  intro s t hs h
  exact step_keeps (fun _ _ _ hu => hu) (fun _ _ hp hi hu => hi.singleWriter hp hu)
    (fun _ _ _ _ ha hu => agentStep_singleWriter ha hu) h hs

/-! ## The size of the region -/

/-- `ceil_div(a, b)` is the least number of `b`s that holds `a` (R12). -/
theorem ceilDiv_le_iff {a b k : Nat} (hb : 1 ≤ b) : ceilDiv a b ≤ k ↔ a ≤ k * b := by
  rw [ceilDiv, ← Nat.ceilDiv_eq_add_pred_div, ceilDiv_le_iff_le_mul hb, Nat.mul_comm]

/-- Settles O11: by the least number of pages (`le_ceilDiv_mul`, `ceilDiv_le_iff`). -/
theorem regionIsLeastPages : Obligations.RegionIsLeastPages := by
  intro c capacity hpage
  refine ⟨Nat.dvd_mul_left _ _, le_ceilDiv_mul _ hpage, ?_⟩
  rintro m ⟨k, rfl⟩ hm
  rw [Nat.mul_comm c.pageSize k] at hm ⊢
  exact Nat.mul_le_mul_right _ ((ceilDiv_le_iff hpage).mpr hm)

/-! ## A word's bytes in the region -/

/-- Bytes written at successive offsets lie there one after another (R67). -/
theorem memByte_putBytes_same (r : Region) (bs : List Byte) :
    ∀ (off : Nat) (m : List Host.Cell) (k : Nat), k < bs.length →
      memByte (putBytes r off bs m) (cellOf r (off + k)) = bs[k]? := by
  induction bs with
  | nil => intro off m k hk; cases hk
  | cons b bs ih =>
    intro off m k hk
    cases k with
    | zero =>
      have later : ∀ j, j < bs.length → cellOf r (off + 0) ≠ cellOf r (off + 1 + j) := fun j _ he => by
        have := cellOf_injective r he
        omega
      rw [putBytes, memByte_putBytes_other r bs (off + 1) _ later]
      exact sparseGet_put_same _ b m
    | succ k =>
      rw [show off + (k + 1) = off + 1 + k by omega]
      exact ih (off + 1) _ k (Nat.lt_of_succ_lt_succ hk)

/-- A word lies least significant byte first (R67). -/
theorem memByte_putWord_same (r : Region) (off : Nat) (w : Word) (m : List Host.Cell) {k : Nat} (hk : k < 4) :
    memByte (putWord r off w m) (cellOf r (off + k)) = some (w.extractLsb' (8 * k) 8) := by
  have bytes : (wordBytes w)[k]? = some (w.extractLsb' (8 * k) 8) := by
    interval_cases k <;> rfl
  exact (memByte_putBytes_same r (wordBytes w) off m k hk).trans bytes

/-- The read of an aligned word inside the region, whose bytes are written, gives it (R67). -/
theorem memRead_word {off : Nat} {s : State} {r : Region} {w : Word} (hr : s.region = some r) (ha : off % 4 = 0)
    (hs : r.has off 4 = true) (hw : getWord r off s.mem = some w) : memRead off 4 s = .ok (some w, s) := by
  simp [memRead, hr, hs, ha, hw]

/-- Settles O17: the store is performed (`memWrite_stores`), and what it leaves is `putWord`'s. -/
theorem regionWordWriteRead : Obligations.RegionWordWriteRead := by
  intro s r off v hr ha hs hp
  exact ⟨_, memWrite_stores hr ha hs hp, rfl, memRead_word hr ha hs (getWord_putWord_same r off v s.mem),
    fun k hk => memByte_putWord_same r off v s.mem hk, fun a hne => memByte_putWord_other r off v s.mem hne⟩

/-! ## SEND under every schedule -/

/-- Drawing changes nothing that order speaks of. -/
theorem InOrder.drawn {s : State} (h : InOrder s) (sched : List Agent) (draws : Nat) :
    InOrder { s with sched := sched, draws := draws } := by
  obtain ⟨hc, hheld, hhw, hloaded⟩ := h
  exact ⟨hc, hheld, HardwareMatches.kept (s := s) (.of_hardware rfl) rfl rfl hhw, hloaded⟩

/-- From a state in order every agent goes on, whatever model fault is recorded: it records no other, and keeps the
order (R290). -/
theorem agentStep_inOrder (a : Agent) {s : State} (h : InOrder s) :
    ∃ t, agentStep a s = .next t ∧ InOrder t ∧ t.fault = s.fault := by
  obtain ⟨hc, hheld, hhw, hloaded⟩ := id h
  have ordered {t : State} (ht : agentStep a s = .next t) (hh : HeldMatch t) (hl : TransferLoaded t) : InOrder t :=
    ⟨by rw [(agentStep_extends ht).cfg]; exact hc, hh, agentStep_hardwareMatches a s t hc ht hhw, hl⟩
  by_cases hseq : a = .seq
  · subst hseq
    obtain ⟨t, ht, hl, hf⟩ := microStep_goes_on h
    exact ⟨t, ht, ordered ht (microStep_heldMatch hc ht hheld) hl, hf⟩
  · have held {t : State} (ht : agentStep a s = .next t) : HeldMatch t := by
      rw [agentStep_frame hseq ht]
      exact hheld
    by_cases hdma : a = .dma
    · subst hdma
      obtain ⟨t, ht, hl, hf⟩ := dmaStep_goes_on h
      exact ⟨t, ht, ordered ht (held ht) hl, hf⟩
    · obtain ⟨t, ht, hframe⟩ := agentStep_around s hseq hdma
      exact ⟨t, ht, ordered ht (held ht) (by rw [hframe]; exact hloaded), by rw [hframe]⟩

/-- A command whose first micro-step is in order goes on under every schedule, and records no model fault (R290). -/
theorem performFrom_inOrder {pc : Pc} {s : State} (h : InOrder (s.setPc pc)) :
    ∃ t, performFrom pc s = .next t ∧ InOrder t ∧ t.fault = s.fault := by
  have goes (a : Agent) (u : State) (hu : InOrder u) : ∃ v, agentStep a u = .next v ∧ InOrder v := by
    obtain ⟨v, hv, hord, -⟩ := agentStep_inOrder a hu
    exact ⟨v, hv, hord⟩
  obtain ⟨t, ht⟩ := performFrom_goes_on goes h
  refine ⟨t, ht, performFrom_keeps (P := fun u => InOrder u ∧ u.fault = s.fault) ?_ ?_ ⟨h, rfl⟩ ht⟩
  · rintro a u v ⟨hu, hf⟩ hv
    obtain ⟨w, hw, hord, hfault⟩ := agentStep_inOrder a hu
    cases hw.symm.trans hv
    exact ⟨hord, hfault.trans hf⟩
  · rintro u rest ⟨hu, hf⟩
    exact ⟨hu.drawn rest u.draws, hf⟩

/-- A state from which SEND can run has SEND's first micro-step in order (R221). -/
theorem ReadyToSend.inOrder {s : State} (h : ReadyToSend s) : InOrder (s.setPc (.send .e1)) := by
  obtain ⟨hc, -, hholds, hready, hstopped, -⟩ := h
  refine ⟨hc, hholds, (hardwareMatches_other fun _ _ _ he => by cases he).mpr fun _ => ?_, ?_⟩
  · exact HardwareReady.kept (s := s) (.of_hardware rfl) hready
  · exact transferLoaded_of_stopped (fun e he => by cases he; rfl) hstopped

/-- The gate lets SEND through in a state from which it can run (R211). -/
theorem ReadyToSend.exec_send {s : State} (h : ReadyToSend s) : exec .send s = performFrom (.send .e1) s := by
  obtain ⟨-, hp, ⟨hlife, -⟩, -⟩ := h
  exact dispatch_perform (gate := gateReady) hp (by rw [hlife]; rfl)

/-- Settles O40: SEND's first micro-step is in order, and what is in order goes on under every schedule. -/
theorem sendNeverStops : Obligations.SendNeverStops := by
  intro s h
  obtain ⟨t, ht, -, hf⟩ := performFrom_inOrder h.inOrder
  exact ⟨t, h.exec_send.trans ht, hf⟩

/-! ## Misused accesses -/

section Region
variable {s : State} {r : Region} {off n : Nat}

/-- A region access that is not one aligned word is not performed (R71). -/
theorem memWrite_mixedWidth (v : Word) (hr : s.region = some r) (hs : r.has off n = true) (hw : n ≠ 4 ∨ off % 4 ≠ 0) :
    memWrite off n v s = .ok (s.markFault .mixedWidth) := by
  simp only [memWrite, hr, hs, Bool.true_eq_false, if_false, if_pos hw]

theorem memRead_mixedWidth (hr : s.region = some r) (hs : r.has off n = true) (hw : n ≠ 4 ∨ off % 4 ≠ 0) :
    memRead off n s = .ok (none, s.markFault .mixedWidth) := by
  simp only [memRead, hr, hs, Bool.true_eq_false, if_false, if_pos hw]

/-- A region write while the DMA runs is not performed (R75). -/
theorem memWrite_dmaRace (v : Word) (hr : s.region = some r) (hs : r.has off 4 = true) (ha : off % 4 = 0)
    (hp : s.dma.phase = .running) : memWrite off 4 v s = .ok (s.markFault .dmaRace) := by
  simp [memWrite, hr, hs, ha, hp]

/-- A region access outside the region stops (R66, log 28). -/
theorem memWrite_outside (v : Word) (hr : s.region = some r) (hs : r.has off n = false) :
    memWrite off n v s = .error .outsideRegion := by
  simp [memWrite, hr, hs]

theorem memRead_outside (hr : s.region = some r) (hs : r.has off n = false) :
    memRead off n s = .error .outsideRegion := by
  simp [memRead, hr, hs]

theorem busRead_outside (hr : s.region = some r) (hs : r.has off 4 = false) :
    busRead (cellOf r off) s = .error .outsideRegion := by
  simp [busRead, cellOf, hr, hs]

/-- The DMA reads nothing at an address that is not aligned (R71). -/
theorem busRead_misaligned (hr : s.region = some r) (hs : r.has off 4 = true) (ha : off % 4 ≠ 0) :
    busRead (cellOf r off) s = .ok .misaligned := by
  simp [busRead, cellOf, hr, hs, ha]

end Region

section Registers
variable {α β : Type} {s : State} {r : Reg}

/-- The conditions of a register access, one by one (R60, R63). -/
theorem accessOk_iff (c : Config) (base : Word) (r : Reg) : accessOk c base r = true ↔
    regAddr c base r % 4 = 0 ∧ regOffset c r + 4 ≤ c.layout.pageBytes ∧ regAddr c base r + 4 ≤ 2 ^ 32 := by
  simp only [accessOk, Bool.and_eq_true, decide_eq_true_eq, and_assoc]

/-- A register access out of its block is not performed (R63), and a read of this kind has no value to go on with
(log 21). -/
theorem regWrite_outOfBlock (eff : State → State) (hm : s.mapped = true) (hr : regInBlock s.cfg r = false) :
    regWrite r eff s = .ok (s.markFault .regOutOfBlock) := by
  simp [regWrite, hm, hr]

theorem Proc.read_outOfBlock (value : State → β) (stay : α) (k : β → Proc α) (hm : s.mapped = true)
    (hr : regInBlock s.cfg r = false) : Proc.read r value stay s k = .goto stay (s.markFault .regOutOfBlock) := by
  simp [Proc.read, hm, hr]

/-- No register access is possible without the window (R62, log 33). -/
theorem regWrite_unmapped (eff : State → State) (hm : s.mapped = false) :
    regWrite r eff s = .error .registersUnmapped := by
  simp [regWrite, hm]

theorem Proc.read_unmapped (value : State → β) (stay : α) (k : β → Proc α) (hm : s.mapped = false) :
    Proc.read r value stay s k = .stop .registersUnmapped := by
  simp [Proc.read, hm]

end Registers

section Channel
variable {s : State}

/-- A word due to be moved that the DMA cannot read stops the machine. -/
theorem dmaStep_readFault {f : Fault} (hp : s.dma.phase = .running) (hn : s.dma.next < transferLength s)
    (hd : flagDreq s = true) (hread : busRead (s.dma.cb.source.toNat + 4 * s.dma.next) s = .error f) :
    dmaStep s = .fault f := by
  rw [dmaStep, if_pos hp, if_pos hn, if_pos hd, hread]

/-- The channel moves no word from an address that is not aligned (R71). -/
theorem dmaStep_misaligned (hp : s.dma.phase = .running) (hn : s.dma.next < transferLength s)
    (hd : flagDreq s = true) (hread : busRead (s.dma.cb.source.toNat + 4 * s.dma.next) s = .ok .misaligned) :
    dmaStep s = .next (s.markFault .mixedWidth) := by
  rw [dmaStep, if_pos hp, if_pos hn, if_pos hd, hread]

/-- The channel holds where it cannot write FIF1 (R63, log 21). -/
theorem dmaStep_outOfBlock {w : Word} (hp : s.dma.phase = .running) (hn : s.dma.next < transferLength s)
    (hd : flagDreq s = true) (hf : fifoInBlock s.cfg = false)
    (hread : busRead (s.dma.cb.source.toNat + 4 * s.dma.next) s = .ok (.word w)) :
    dmaStep s = .next (s.markFault .regOutOfBlock) := by
  rw [dmaStep, if_pos hp, if_pos hn, if_pos hd, hread]
  exact if_neg (by simp [hf])

/-- START loads no control block from an address that is not aligned, and the channel stays stopped (log 25). -/
theorem dmaStart_misaligned (hp : s.dma.phase = .stopped)
    (hread : busRead s.dma.conblkAd.toNat s = .ok .misaligned) : dmaStart s = .ok (s.markFault .mixedWidth) := by
  have hload : loadBlock s.dma.conblkAd s = .ok .misaligned := by simp [loadBlock, loadWords, hread]
  simp [dmaStart, hp, hload]

end Channel

/-- Settles O18: each access by the lemma that names its misuse. -/
theorem misuseIsRecordedNotPerformed : Obligations.MisuseIsRecordedNotPerformed := by
  refine ⟨Region.has_iff, ?region, fun c base reg => ⟨accessOk_iff c base reg, rfl, rfl⟩, ?register, ?move, ?start⟩
  case region =>
    intro s r off n v hr
    refine ⟨fun hs hw => ⟨memWrite_mixedWidth v hr hs hw, memRead_mixedWidth hr hs hw⟩, ?_,
      fun hs => ⟨memWrite_outside v hr hs, memRead_outside hr hs⟩⟩
    rintro rfl ha hs hp
    exact memWrite_dmaRace v hr hs ha hp
  case register =>
    intro s reg eff value stay k
    exact ⟨fun hm hout => ⟨regWrite_outOfBlock eff hm hout, Proc.read_outOfBlock value stay k hm hout⟩,
      fun hm => ⟨regWrite_unmapped eff hm, Proc.read_unmapped value stay k hm⟩⟩
  case move =>
    intro s r off hr hp hn hd haddr
    refine ⟨fun hs => dmaStep_readFault hp hn hd ?_, fun hs ha => dmaStep_misaligned hp hn hd ?_, fun hs ha hw hf => ?_⟩
    · rw [haddr]
      exact busRead_outside hr hs
    · rw [haddr]
      exact busRead_misaligned hr hs ha
    · obtain ⟨w, hw⟩ := Option.isSome_iff_exists.mp hw
      refine dmaStep_outOfBlock hp hn hd hf (w := w) ?_
      rw [haddr]
      exact busRead_word hr hs ha hw
  case start =>
    intro s r off hr hp haddr hs ha
    refine dmaStart_misaligned hp ?_
    rw [haddr]
    exact busRead_misaligned hr hs ha

end Sys2Proof.Machine

/-! Settles the encoding's statements (30_encoding.md). SUPPORT first: what splitting off operands can do, and what the
decoder reads each byte string as; the packed colour's bytes; the marks of a derivation and the waveform's elements. -/

namespace Sys2Proof.Machine

/-! ## One operand -/

/-- A word made of four bytes has these bytes (R67, R91). -/
@[simp] theorem wordBytes_bytesWord (b0 b1 b2 b3 : Byte) : wordBytes (bytesWord b0 b1 b2 b3) = [b0, b1, b2, b3] := by
  simp only [wordBytes, bytesWord, List.cons.injEq, and_true]
  refine ⟨?_, ?_, ?_, ?_⟩
  all_goals
    ext i hi
    grind

@[simp] theorem isS32_iff (x : Int) : isS32 x = true ↔ -(2 ^ 31) ≤ x ∧ x < 2 ^ 31 := by
  simp [isS32]

/-- What is read from four bytes is an s32 (R91, R95). -/
theorem isS32_operandOf (b0 b1 b2 b3 : Byte) : isS32 (operandOf b0 b1 b2 b3) = true :=
  (isS32_iff _).mpr ⟨BitVec.le_toInt _, BitVec.toInt_lt⟩

/-- The bytes of an operand read from four bytes are these (R91, R95). -/
@[simp] theorem operandBytes_operandOf (b0 b1 b2 b3 : Byte) :
    operandBytes (operandOf b0 b1 b2 b3) = [b0, b1, b2, b3] := by
  rw [operandBytes, operandOf, BitVec.ofInt_toInt, wordBytes_bytesWord]

@[simp] theorem operandBytes_length (x : Int) : (operandBytes x).length = 4 := rfl

/-- The s32 read from an operand's bytes is that operand (R95). -/
theorem takeOperand_operandBytes {x : Int} (h : isS32 x = true) (rest : List Byte) :
    takeOperand (operandBytes x ++ rest) = some (x, rest) := by
  obtain ⟨hlo, hhi⟩ := (isS32_iff x).mp h
  have hx : (BitVec.ofInt 32 x).toInt = x := BitVec.toInt_ofInt_eq_self (by decide) hlo hhi
  simp [takeOperand, operandBytes, wordBytes, operandOf, hx]

/-- Splitting off an operand says once what it can do: too few bytes are there, or they begin with an s32's bytes
(R91, R93). -/
theorem takeOperand_cases (bs : List Byte) :
    (bs.length < 4 ∧ takeOperand bs = none)
      ∨ ∃ x rest, isS32 x = true ∧ bs = operandBytes x ++ rest ∧ takeOperand bs = some (x, rest) := by
  match bs with
  | b0 :: b1 :: b2 :: b3 :: rest =>
    exact .inr ⟨_, rest, isS32_operandOf b0 b1 b2 b3, by rw [operandBytes_operandOf]; rfl, rfl⟩
  | [] | [_] | [_, _] | [_, _, _] => exact .inl ⟨by simp, rfl⟩

/-! ## The operands of a format -/

/-- The operands read from the bytes of s32 operands are those operands (R91, R95). -/
theorem takeOperands_operandBytes {xs : List Int} (h : xs.all isS32 = true) (rest : List Byte) :
    takeOperands xs.length (xs.flatMap operandBytes ++ rest) = some (xs, rest) := by
  induction xs with
  | nil => rfl
  | cons x xs ih =>
    obtain ⟨hx, hxs⟩ := (Bool.and_eq_true _ _).mp h
    rw [List.flatMap_cons, List.append_assoc, List.length_cons, takeOperands, takeOperand_operandBytes hx]
    simp only [ih hxs]

/-- Splitting off `n` operands says once what it can do: too few bytes are there, or they begin with the bytes of `n`
s32 operands (R91, R93). -/
theorem takeOperands_cases (n : Nat) (bs : List Byte) :
    (bs.length < 4 * n ∧ takeOperands n bs = none)
      ∨ ∃ xs rest, xs.length = n ∧ xs.all isS32 = true ∧ bs = xs.flatMap operandBytes ++ rest
          ∧ takeOperands n bs = some (xs, rest) := by
  induction n generalizing bs with
  | zero => exact .inr ⟨[], bs, rfl, rfl, rfl, rfl⟩
  | succ n ih =>
    obtain ⟨hlen, hnone⟩ | ⟨x, bs, hx, rfl, htake⟩ := takeOperand_cases bs
    · exact .inl ⟨by omega, by simp only [takeOperands, hnone]⟩
    · obtain ⟨hlen, hnone⟩ | ⟨xs, rest, rfl, hxs, rfl, htakes⟩ := ih bs
      · refine .inl ⟨?_, by simp only [takeOperands, htake, hnone]⟩
        rw [List.length_append, operandBytes_length]
        omega
      · exact .inr ⟨x :: xs, rest, rfl, (Bool.and_eq_true _ _).mpr ⟨hx, hxs⟩, (List.append_assoc ..).symm,
          by simp only [takeOperands, htake, htakes]⟩

/-! ## The encoder and the decoder -/

/-- The encoding of a command has the length its opcode says (R91, R92, R101). -/
theorem encode_length (i : Instr) : (encode i).length = commandLength (opcode i) := by
  cases i <;> rfl

/-- The opcodes of the commands are 0x01 to 0x08 (R92). -/
theorem opcode_mem (i : Instr) : 1 ≤ (opcode i).toNat ∧ (opcode i).toNat ≤ 8 := by
  cases i <;> simp [opcode]

/-- Where the decoder reads a command's opcode by a format, and the format builds the command from its operands, it
gives the encoded command back (R91, R95). -/
theorem decode_encode_of_format {i : Instr} {build : List Int → Option Instr} (hwf : i.wf = true)
    (hdecode : ∀ bs, decode (opcode i :: bs) = decodeOperands (opcode i) i.operands.length build bs)
    (hbuild : build i.operands = some i) (rest : List Byte) : decode (encode i ++ rest) = .command i rest := by
  rw [encode, List.cons_append, hdecode]
  simp only [decodeOperands, takeOperands_operandBytes hwf, hbuild]

/-- Settles O2: a command with operands by its format, any other by its opcode. -/
theorem decodeOfEncode : Obligations.DecodeOfEncode := by
  intro i rest hwf
  cases i with
  | setup | setColor | setColorHsb | hsbToRgb => exact decode_encode_of_format hwf (fun _ => rfl) rfl rest
  | send | clearAll | cleanup | encode => rfl

/-- What a byte string is read as: nothing, a reserved opcode, fewer bytes than the opcode's format has, or a
well-formed command before further bytes (R91, R93, R101). -/
inductive Reads : List Byte → Decoded → Prop where
  | empty : Reads [] .empty
  | reserved {op : Byte} {rest : List Byte} (hop : op.toNat = 0 ∨ 9 ≤ op.toNat) :
      Reads (op :: rest) (.reserved op rest)
  | short {op : Byte} {rest : List Byte} (hop : 1 ≤ op.toNat ∧ op.toNat ≤ 8)
      (hlen : rest.length + 1 < commandLength op) : Reads (op :: rest) (.short op)
  | command {i : Instr} {rest : List Byte} (hwf : i.wf = true) : Reads (encode i ++ rest) (.command i rest)

/-- A format is read where each list of as many operands as it has makes a command of the opcode (R91, R92). -/
theorem decodeOperands_reads {op : Byte} {n : Nat} {build : List Int → Option Instr} (rest : List Byte)
    (hop : 1 ≤ op.toNat ∧ op.toNat ≤ 8) (hlen : commandLength op = 4 * n + 1)
    (hbuild : ∀ xs, xs.length = n → ∃ i, build xs = some i ∧ opcode i = op ∧ i.operands = xs) :
    Reads (op :: rest) (decodeOperands op n build rest) := by
  unfold decodeOperands
  obtain ⟨hshort, hnone⟩ | ⟨xs, rest, hn, hxs, rfl, htake⟩ := takeOperands_cases n rest
  · simp only [hnone]
    exact .short hop (by omega)
  · obtain ⟨i, hi, rfl, rfl⟩ := hbuild xs hn
    simp only [htake, hi]
    exact .command hxs

/-- A command without operands is read from its opcode alone (R91). -/
theorem reads_opcode {op : Byte} {i : Instr} (rest : List Byte) (hop : opcode i = op) (hi : i.operands = []) :
    Reads (op :: rest) (.command i rest) := by
  have hread : Reads (encode i ++ rest) (.command i rest) := .command (by rw [Instr.wf, hi]; rfl)
  rwa [encode, hi, hop] at hread

/-- The decoder reads every byte string as R91, R93 and R101 say. -/
theorem decode_reads (bs : List Byte) : Reads bs (decode bs) := by
  cases bs with
  | nil => exact .empty
  | cons op rest =>
    simp only [decode]
    split
    case h_1 h =>
      obtain ⟨-, rfl⟩ := BitVec.toNat_eq_nat.mp h
      exact decodeOperands_reads rest (by decide) rfl fun | [_, _], _ => ⟨_, rfl, rfl, rfl⟩
    case h_2 h | h_3 h =>
      obtain ⟨-, rfl⟩ := BitVec.toNat_eq_nat.mp h
      exact decodeOperands_reads rest (by decide) rfl fun | [_, _, _, _], _ => ⟨_, rfl, rfl, rfl⟩
    case h_8 h =>
      obtain ⟨-, rfl⟩ := BitVec.toNat_eq_nat.mp h
      exact decodeOperands_reads rest (by decide) rfl fun | [_, _, _], _ => ⟨_, rfl, rfl, rfl⟩
    case h_4 h | h_5 h | h_6 h | h_7 h =>
      obtain ⟨-, rfl⟩ := BitVec.toNat_eq_nat.mp h
      exact reads_opcode rest rfl rfl
    case h_9 =>
      simp only [imp_false] at *
      exact .reserved (by omega)

/-- Settles O3: only a well-formed command's encoding is read as that command (`decode_reads`). -/
theorem encodeOfDecode : Obligations.EncodeOfDecode := by
  intro bs rest i h
  have hr := decode_reads bs
  rw [h] at hr
  cases hr with
  | command hwf => exact ⟨hwf, rfl⟩

/-- The decoder says once what it can do with an opcode: the opcode is reserved, or the number of bytes decides between
a short string and a command (R93, R101). -/
theorem decode_cons_cases (op : Byte) (rest : List Byte) :
    ((op.toNat = 0 ∨ 9 ≤ op.toNat) ∧ decode (op :: rest) = .reserved op rest)
      ∨ (1 ≤ op.toNat ∧ op.toNat ≤ 8)
          ∧ ((rest.length + 1 < commandLength op ∧ decode (op :: rest) = .short op)
            ∨ (commandLength op ≤ rest.length + 1 ∧ ∃ i rest', decode (op :: rest) = .command i rest')) := by
  have hr := decode_reads (op :: rest)
  generalize decode (op :: rest) = d at hr ⊢
  generalize hbs : op :: rest = bs at hr
  cases hr with
  | empty => cases hbs
  | reserved hop => cases hbs; exact .inl ⟨hop, rfl⟩
  | short hop hlen => cases hbs; exact .inr ⟨hop, .inl ⟨hlen, rfl⟩⟩
  | @command i rest' hwf =>
    obtain ⟨rfl, -⟩ : op = opcode i ∧ rest = _ := List.cons.inj hbs
    have hlen := congrArg List.length hbs
    rw [List.length_append, encode_length, List.length_cons] at hlen
    exact .inr ⟨opcode_mem i, .inr ⟨by omega, i, rest', rfl⟩⟩

/-- Settles O4: in each case of `decode_cons_cases` both sides hold or neither does. -/
theorem reservedAndShortStrings : Obligations.ReservedAndShortStrings := by
  refine ⟨fun op rest => ?_, fun op rest h1 h8 => ?_⟩
  · obtain ⟨hop, h⟩ | ⟨hop, ⟨-, h⟩ | ⟨-, i, rest', h⟩⟩ := decode_cons_cases op rest
    · exact iff_of_true h hop
    · exact iff_of_false (by simp [h]) (by omega)
    · exact iff_of_false (by simp [h]) (by omega)
  · obtain ⟨hop, -⟩ | ⟨-, ⟨hlen, h⟩ | ⟨hlen, i, rest', h⟩⟩ := decode_cons_cases op rest
    · omega
    · exact iff_of_true h hlen
    · exact iff_of_false (by simp [h]) (by omega)

/-- Settles O1, by running the decoder. -/
theorem sampleWordsDecode : Obligations.SampleWordsDecode := by
  unfold Obligations.SampleWordsDecode
  decide

/-! ## The packed colour -/

/-- A channel value in 0..255 is its byte (R97). -/
theorem channelByte_toNat {x : Int} (h0 : 0 ≤ x) (h1 : x ≤ 255) : ((channelByte x).toNat : Int) = x := by
  rw [channelByte, BitVec.toNat_ofInt]
  omega

/-- Three bytes, the first of them in bits 23:16 (R97). -/
theorem toNat_append_bytes (a b c : Byte) :
    (a ++ b ++ c).toNat = a.toNat * 65536 + b.toNat * 256 + c.toNat := by
  have hb := b.isLt
  have hc := c.isLt
  rw [BitVec.toNat_append, BitVec.toNat_append, ← Nat.shiftLeft_add_eq_or_of_lt hb,
    ← Nat.shiftLeft_add_eq_or_of_lt hc]
  omega

/-- Settles O12: each order's bytes by `toNat_append_bytes`. -/
theorem packInWireOrder : Obligations.PackInWireOrder := by
  intro r g b hr hr' hg hg' hb hb'
  have hR := channelByte_toNat hr hr'
  have hG := channelByte_toNat hg hg'
  have hB := channelByte_toNat hb hb'
  constructor <;> rw [pack, toNat_append_bytes] <;> omega

/-! ## The waveform's elements -/

/-- What a successful derivation holds: the ticks of a valid divider, and its gap (R131-R134). -/
theorem deriveTiming_eq_some {c : Config} {tm : Timing} (h : deriveTiming c = some tm) :
    validDiv c tm.div = true ∧ tm.range = rangeTicks c tm.div ∧ tm.markZero = zeroTicks c tm.div
      ∧ tm.markOne = oneTicks c tm.div ∧ tm.resetGapLength = gapLength c tm.range tm.div := by
  unfold deriveTiming at h
  split at h
  · cases h
  · next d hd =>
    cases h
    exact ⟨chooseDiv_valid hd, rfl, rfl, rfl, rfl⟩

/-- 1 ≤ Z < O ≤ 255 in the derivation (R132, R135). -/
theorem deriveTiming_marks {c : Config} {tm : Timing} (h : deriveTiming c = some tm) :
    1 ≤ tm.markZero ∧ tm.markZero < tm.markOne ∧ tm.markOne ≤ 255 := by
  obtain ⟨hv, -, hz, ho, -⟩ := deriveTiming_eq_some h
  simp only [validDiv, Bool.and_eq_true, decide_eq_true_eq] at hv
  omega

/-- 1 ≤ Z < O in the timing registers (R135). -/
theorem TimingStored.marks {s : State} (h : TimingStored s) :
    1 ≤ s.markZero.toNat ∧ s.markZero.toNat < s.markOne.toNat := by
  obtain ⟨tm, htm, -, -, hz, ho, -⟩ := (timingStored_iff s).mp h
  have hm := deriveTiming_marks htm
  rw [hz, ho, BitVec.toNat_ofNat, BitVec.toNat_ofNat]
  omega

/-- An element of a colour is Z or O (R98). -/
theorem mem_ledElems {s : State} {c : Color} {e : Byte} (h : e ∈ ledElems s c) :
    e = s.markZero ∨ e = s.markOne := by
  obtain ⟨k, -, rfl⟩ := List.mem_map.mp h
  cases c.getLsbD (23 - k)
  · exact .inl rfl
  · exact .inr rfl

/-- An element of the waveform is 0, Z or O (R98). -/
theorem mem_waveform {s : State} {e : Byte} (h : e ∈ waveform s) : e = 0 ∨ e = s.markZero ∨ e = s.markOne := by
  obtain hled | hgap := List.mem_append.mp h
  · obtain ⟨c, -, hc⟩ := List.mem_flatMap.mp hled
    exact .inr (mem_ledElems hc)
  · exact .inl (List.eq_of_mem_replicate hgap)

/-- Settles O14: the elements by `mem_waveform`, their distinctness by R135's 1 ≤ Z < O. -/
theorem waveformHasThreeValues : Obligations.WaveformHasThreeValues := by
  intro s ht
  obtain ⟨hz, hlt⟩ := ht.marks
  exact ⟨fun e => mem_waveform, by bv_omega, by bv_omega, by bv_omega⟩

end Sys2Proof.Machine

/-! Settles the bit-timer's statements (41_bit_timer.md). SUPPORT first: rounding, a valid divider, the search for the
least one, and the reset gap; the words a SEND moves and the cycles it emits; and SETUP under a named schedule, stretch by
stretch. -/

namespace Sys2Proof.Machine

/-! ## The timing derivation -/

/-- `round_half_up(a, b)` is the nearest integer to a / b, an exact half rounded up (R12). -/
theorem roundHalfUp_nearest (a : Nat) {b : Nat} (hb : 1 ≤ b) :
    2 * (roundHalfUp a b * b) ≤ 2 * a + b ∧ 2 * a + b < 2 * ((roundHalfUp a b + 1) * b) := by
  have hbelow := Nat.div_mul_le_self (2 * a + b) (2 * b)
  have habove := Nat.lt_div_mul_add (a := 2 * a + b) (b := 2 * b) (by omega)
  have hdouble : (2 * a + b) / (2 * b) * (2 * b) = 2 * (roundHalfUp a b * b) := Nat.mul_left_comm _ _ _
  rw [hdouble] at hbelow habove
  refine ⟨hbelow, ?_⟩
  rw [Nat.add_one_mul (roundHalfUp a b)]
  omega

/-- Settles O5: the rounding of `roundHalfUp`; 1250, 400 and 800 are R8's constants. -/
theorem ticksRoundToNearest : Obligations.TicksRoundToNearest := by
  intro c t d hd
  obtain ⟨hbelow, habove⟩ := roundHalfUp_nearest (t * c.fSrcHz) (b := d * 10 ^ 9) (by omega)
  exact ⟨hbelow, habove, rfl, rfl, rfl⟩

/-- R132 (b), with the absolute value written out. -/
theorem withinTolerance_iff (c : Config) (k t d : Nat) : withinTolerance c k t d = true ↔
    |((k * d * 10 ^ 9 : Nat) : Int) - ((t * c.fSrcHz : Nat) : Int)| ≤ 150 * (c.fSrcHz : Int) := by
  simp only [withinTolerance, Bool.and_eq_true, decide_eq_true_eq]
  simp only [tolNs, abs_le]
  generalize k * d * 10 ^ 9 = x
  generalize t * c.fSrcHz = y
  omega

/-- A valid divider, condition by condition (R132). -/
theorem validDiv_iff (c : Config) (d : Nat) : validDiv c d = true ↔
    (1 ≤ d ∧ d ≤ c.divMax)
      ∧ (withinTolerance c (rangeTicks c d) 1250 d = true ∧ withinTolerance c (zeroTicks c d) 400 d = true
        ∧ withinTolerance c (oneTicks c d) 800 d = true)
      ∧ (1 ≤ zeroTicks c d ∧ zeroTicks c d < oneTicks c d ∧ oneTicks c d ≤ rangeTicks c d)
      ∧ oneTicks c d ≤ 255 ∧ rangeTicks c d ≤ 2 ^ 32 - 1 := by
  simp only [validDiv, Bool.and_eq_true, decide_eq_true_eq, and_assoc, tCycleNs, t0hNs, t1hNs]

/-- Settles O6: by `validDiv_iff`, (b) by `withinTolerance_iff`. -/
theorem validDividerMeaning : Obligations.ValidDividerMeaning := by
  intro c d
  simp only [validDiv_iff, withinTolerance_iff, List.forall_mem_cons, List.not_mem_nil, false_imp_iff, implies_true,
    and_true]

/-- The search for a valid divider finds the least one of its interval, and none only where there is none (R133). -/
theorem leastValidFrom_spec (c : Config) (k : Nat) : ∀ d₀,
    (∀ d, leastValidFrom c k d₀ = some d → ∀ d', d₀ ≤ d' → validDiv c d' = true → d ≤ d')
      ∧ (leastValidFrom c k d₀ = none → ∀ d', d₀ ≤ d' → d' < d₀ + k → validDiv c d' = false) := by
  induction k with
  | zero => exact fun d₀ => ⟨fun d h => (by cases h), fun _ d' _ _ => by omega⟩
  | succ k ih =>
    intro d₀
    obtain ⟨hleast, hnone⟩ := ih (d₀ + 1)
    cases hv : validDiv c d₀ with
    | true =>
      rw [leastValidFrom, if_pos hv]
      exact ⟨fun d h d' hd' _ => by cases h; exact hd', fun h => by cases h⟩
    | false =>
      have later {d' : Nat} (hd' : d₀ ≤ d') (hne : d' ≠ d₀) : d₀ + 1 ≤ d' := by omega
      rw [leastValidFrom, if_neg (by simp [hv])]
      refine ⟨fun d h d' hd' hv' => hleast d h d' (later hd' ?_) hv', fun h d' hd' hlt => ?_⟩
      · rintro rfl
        simp [hv] at hv'
      · by_cases he : d' = d₀
        · rw [he, hv]
        · exact hnone h d' (later hd' he) (by omega)

/-- The derivation's divider is the chosen one, and it fails where none is (R133). -/
theorem deriveTiming_div (c : Config) : (deriveTiming c).map Timing.div = chooseDiv c := by
  unfold deriveTiming
  cases chooseDiv c <;> rfl

theorem deriveTiming_eq_none (c : Config) : deriveTiming c = none ↔ chooseDiv c = none := by
  rw [← deriveTiming_div, Option.map_eq_none_iff]

/-- AUTO searches all of 1..DIV_MAX (R133). -/
theorem chooseDiv_auto {c : Config} (h : c.clkDiv = none) : chooseDiv c = leastValidFrom c c.divMax 1 := by
  rw [chooseDiv, h]

/-- Settles O7: a given CLK_DIV by `chooseDiv`, AUTO by the search (`leastValidFrom_spec`). -/
theorem dividerIsLeastValid : Obligations.DividerIsLeastValid := by
  intro c
  obtain ⟨hleast, hnone⟩ := leastValidFrom_spec c c.divMax 1
  have bounds {d : Nat} (hv : validDiv c d = true) : 1 ≤ d ∧ d ≤ c.divMax := ((validDiv_iff c d).mp hv).1
  refine ⟨fun d hd => ?_, fun hauto => ⟨fun t ht => ?_, fun hn d => ?_, fun hall => ?_⟩, fun t ht => ?_,
    fun hn s pin n e hs => ?_⟩
  · rw [deriveTiming_div, chooseDiv, hd]
  · have hdiv : leastValidFrom c c.divMax 1 = some t.div := by
      rw [← chooseDiv_auto hauto, ← deriveTiming_div, ht, Option.map_some]
    exact ⟨leastValidFrom_valid _ _ hdiv, fun d hv => hleast _ hdiv d (bounds hv).1 hv⟩
  · rw [deriveTiming_eq_none, chooseDiv_auto hauto] at hn
    cases hv : validDiv c d with
    | false => rfl
    | true =>
      obtain ⟨hpos, hmax⟩ := bounds hv
      exact hv.symm.trans (hnone hn d hpos (by omega))
  · rw [deriveTiming_eq_none]
    by_contra hsome
    obtain ⟨d, hd⟩ := Option.ne_none_iff_exists'.mp hsome
    simpa [hall d] using chooseDiv_valid hd
  · obtain ⟨-, hrange, hzero, hone, -⟩ := deriveTiming_eq_some ht
    exact ⟨hrange, hzero, hone⟩
  · simp only [setupStep, hs, hn]

/-- A derived cycle lasts some time (R132). -/
theorem deriveTiming_period_pos {c : Config} {t : Timing} (h : deriveTiming c = some t) :
    1 ≤ t.range * t.div * 10 ^ 9 := by
  obtain ⟨hv, hrange, -⟩ := deriveTiming_eq_some h
  obtain ⟨⟨hdiv, -⟩, -, hmarks, -⟩ := (validDiv_iff _ _).mp hv
  exact Nat.mul_pos (Nat.mul_pos (by omega) hdiv) (by norm_num)

/-- The reset gap is the least number of cycles that lasts T_RESET_NS (R134). -/
theorem deriveTiming_gap_le_iff {c : Config} {t : Timing} (h : deriveTiming c = some t) (n : Nat) :
    t.resetGapLength ≤ n ↔ c.tResetNs * c.fSrcHz ≤ n * (t.range * t.div * 10 ^ 9) := by
  obtain ⟨-, -, -, -, hgap⟩ := deriveTiming_eq_some h
  rw [hgap, gapLength, ceilDiv_le_iff (deriveTiming_period_pos h)]

/-- Settles O8: by `deriveTiming_gap_le_iff`; no cycle at all lasts no time. -/
theorem resetGapIsLeast : Obligations.ResetGapIsLeast := by
  intro c t h hreset hsrc
  have hleast := deriveTiming_gap_le_iff h
  refine ⟨(hleast _).mp le_rfl, fun n => (hleast n).mpr, ?_⟩
  have htime : 1 ≤ c.tResetNs * c.fSrcHz := Nat.mul_pos hreset hsrc
  have hzero := hleast 0
  omega

/-- Settles O9: what S3 stores fits its registers by R132 (d) and (e). -/
theorem storedTimingSound : Obligations.StoredTimingSound := by
  intro s t pin n e h hreset hsrc
  obtain ⟨hv, hrange, hzero, hone, -⟩ := deriveTiming_eq_some h
  obtain ⟨-, -, ⟨hpos, hlt, hle⟩, hbyte, hword⟩ := (validDiv_iff _ _).mp hv
  rw [← hzero] at hpos hlt
  rw [← hone] at hlt hle hbyte
  rw [← hrange] at hle hword
  obtain ⟨-, -, hgap⟩ := resetGapIsLeast s.cfg t h hreset hsrc
  have hr : (BitVec.ofNat 32 t.range).toNat = t.range := Nat.mod_eq_of_lt (by omega)
  have hz : (BitVec.ofNat 8 t.markZero).toNat = t.markZero := Nat.mod_eq_of_lt (by omega)
  have ho : (BitVec.ofNat 8 t.markOne).toNat = t.markOne := Nat.mod_eq_of_lt (by omega)
  refine ⟨storeTiming t s, by simp only [setupStep, h], rfl, rfl, hr, hz, ho, rfl, ?_, ?_, ?_, ?_, hgap⟩ <;>
    simp only [storeTiming, hr, hz, ho] <;> assumption

/-- Settles O10: R132 (b) of the divider, and the gap's length by `deriveTiming_gap_le_iff`. -/
theorem cyclesConform : Obligations.CyclesConform := by
  intro c t h
  obtain ⟨hv, hrange, hzero, hone, -⟩ := deriveTiming_eq_some h
  obtain ⟨-, ⟨hcycle, hshort, hlong⟩, -⟩ := (validDiv_iff _ _).mp hv
  rw [withinTolerance_iff] at hcycle hshort hlong
  have hgap := (deriveTiming_gap_le_iff h _).mp le_rfl
  rw [hrange, hzero, hone]
  refine ⟨by exact_mod_cast hcycle, by exact_mod_cast hshort, by exact_mod_cast hlong, ?_⟩
  rw [← hrange]
  simpa only [Nat.mul_assoc] using hgap

/-! ## A SEND under every schedule -/

/-- `tail` is `base` with nothing but low cycles of the range `rng` added (R143, R145, R322). -/
structure Padded (rng : Word) (base tail : List Cycle) : Prop where
  sublist : base.Sublist tail
  high : tail.filter (fun c => c.mark ≠ 0) = base.filter (fun c => c.mark ≠ 0)
  range : ∀ c ∈ tail, c.range = rng

theorem Padded.nil (rng : Word) : Padded rng [] [] where
  sublist := .slnil
  high := rfl
  range c hc := by cases hc

theorem Padded.low {rng : Word} {base tail : List Cycle} (h : Padded rng base tail) :
    Padded rng base (tail ++ [{ mark := 0, range := rng }]) where
  sublist := h.sublist.trans (List.sublist_append_left _ _)
  high := by simpa using h.high
  range c hc := (List.mem_append.mp hc).elim (h.range c) fun hlow => by rw [List.mem_singleton.mp hlow]

theorem Padded.cycle {rng : Word} {base tail : List Cycle} (h : Padded rng base tail) (m : Word) :
    Padded rng (base ++ [{ mark := m, range := rng }]) (tail ++ [{ mark := m, range := rng }]) where
  sublist := h.sublist.append (.refl _)
  high := by rw [List.filter_append, List.filter_append, h.high]
  range c hc := (List.mem_append.mp hc).elim (h.range c) fun hlast => by rw [List.mem_singleton.mp hlast]

/-- Of the first `k` elements of `s`'s waveform, the first have been emitted since `s`, with nothing but low cycles
added, and the others stand in the FIFO; the framebuffer and the timing are those of `s`. -/
structure Emitting (s : State) (k : Nat) (t : State) : Prop where
  setting : (t.fb, t.timing) = (s.fb, s.timing)
  stream : ∃ n tail, n ≤ k ∧ t.fifo = (((waveform s).take k).drop n).map sourceWord ∧ t.out = s.out ++ tail
    ∧ Padded s.range (frameCycles s ((waveform s).take n)) tail

section Emitting
variable {s t u : State} {k : Nat}

theorem Emitting.congr (h : Emitting s k t) (hk : (u.fb, u.timing) = (t.fb, t.timing)) (hf : u.fifo = t.fifo)
    (ho : u.out = t.out) : Emitting s k u := by
  obtain ⟨hset, hstream⟩ := h
  exact ⟨hk.trans hset, by rw [hf, ho]; exact hstream⟩

theorem Emitting.waveform_eq (h : Emitting s k t) : waveform t = waveform s := by
  have hset := h.setting
  simp only [State.timing, Prod.mk.injEq] at hset
  obtain ⟨hfb, -, -, -, hzero, hone, hgap⟩ := hset
  have hled : ledElems t = ledElems s := by
    funext c
    simp only [ledElems, bitElem, hzero, hone]
  simp only [waveform, hfb, hled, hgap]

theorem Emitting.range_eq (h : Emitting s k t) : t.range = s.range := by
  have hset := h.setting
  simp only [State.timing, Prod.mk.injEq] at hset
  obtain ⟨-, -, -, hrange, -⟩ := hset
  exact hrange

/-- What stands in the FIFO are words of the waveform. -/
theorem Emitting.mem_fifo (h : Emitting s k t) {w : Word} (hw : w ∈ t.fifo) :
    ∃ e ∈ waveform s, sourceWord e = w := by
  obtain ⟨-, n, tail, -, hfifo, -⟩ := h
  rw [hfifo] at hw
  obtain ⟨e, he, hword⟩ := List.mem_map.mp hw
  exact ⟨e, List.mem_of_mem_take (List.mem_of_mem_drop he), hword⟩

/-- The DMA moves the next element to the FIFO's tail (R184). -/
theorem Emitting.move (h : Emitting s k t) (hk : k < (waveform s).length) (hset : (u.fb, u.timing) = (t.fb, t.timing))
    (hf : u.fifo = t.fifo ++ [sourceWord (waveform s)[k]]) (ho : u.out = t.out) : Emitting s (k + 1) u := by
  obtain ⟨hkept, n, tail, hn, hfifo, hout, hpad⟩ := h
  refine ⟨hset.trans hkept, n, tail, by omega, ?_, ho.trans hout, hpad⟩
  have hlen : n ≤ ((waveform s).take k).length := by rw [List.length_take]; omega
  rw [hf, hfifo, ← List.take_append_getElem hk, List.drop_append_of_le_length hlen, List.map_append,
    List.map_singleton]

/-- A cycle from an empty FIFO is low (R143). -/
theorem Emitting.low (h : Emitting s k t) (hset : (u.fb, u.timing) = (t.fb, t.timing)) (hf : u.fifo = t.fifo)
    (ho : u.out = t.out ++ [{ mark := 0, range := s.range }]) : Emitting s k u := by
  obtain ⟨hkept, n, tail, hn, hfifo, hout, hpad⟩ := h
  exact ⟨hset.trans hkept, n, _, hn, hf.trans hfifo, by rw [ho, hout, List.append_assoc], hpad.low⟩

/-- A cycle from the FIFO's head is the frame's next (R141, R145). -/
theorem Emitting.pop (h : Emitting s k t) {w : Word} (hset : (u.fb, u.timing) = (t.fb, t.timing))
    (hf : t.fifo = w :: u.fifo) (ho : u.out = t.out ++ [{ mark := w, range := s.range }]) : Emitting s k u := by
  obtain ⟨hkept, n, tail, hn, hfifo, hout, hpad⟩ := h
  rw [hf] at hfifo
  have hlt : n < ((waveform s).take k).length := by
    by_contra hge
    rw [List.drop_eq_nil_of_le (by omega)] at hfifo
    cases hfifo
  rw [List.drop_eq_getElem_cons hlt, List.map_cons, List.cons.injEq, List.getElem_take] at hfifo
  obtain ⟨rfl, hrest⟩ := hfifo
  rw [List.length_take] at hlt
  have hnext : frameCycles s ((waveform s).take (n + 1)) = frameCycles s ((waveform s).take n)
      ++ [{ mark := sourceWord (waveform s)[n], range := s.range }] := by
    rw [← List.take_append_getElem (by omega), frameCycles, List.map_append]
    rfl
  exact ⟨hset.trans hkept, n + 1, _, by omega, hrest, by rw [ho, hout, List.append_assoc],
    by rw [hnext]; exact hpad.cycle _⟩

end Emitting

/-- The mark of every element is within the range (R135). -/
theorem waveform_le_range {s : State} (ht : TimingStored s) {e : Byte} (he : e ∈ waveform s) :
    (sourceWord e).toNat ≤ s.range.toNat := by
  obtain ⟨tm, htm, -, hrange, hzero, hone, -⟩ := (timingStored_iff s).mp ht
  obtain ⟨hv, hr, hz, ho, -⟩ := deriveTiming_eq_some htm
  obtain ⟨-, -, ⟨-, hlt, hle⟩, hbyte, hword⟩ := (validDiv_iff _ _).mp hv
  have hrng : s.range.toNat = tm.range := by
    rw [hrange]
    exact Nat.mod_eq_of_lt (by omega)
  have hmark : e.toNat ≤ tm.markOne := by
    obtain rfl | rfl | rfl := mem_waveform he
    · exact Nat.zero_le _
    · rw [hzero, BitVec.toNat_ofNat, Nat.mod_eq_of_lt (by omega)]
      omega
    · rw [hone, BitVec.toNat_ofNat]
      exact Nat.mod_le _ _
  have hzext : (sourceWord e).toNat = e.toNat := by
    unfold sourceWord
    rw [BitVec.toNat_setWidth]
    exact Nat.mod_eq_of_lt (by omega)
  omega

/-- The PWM emits the FIFO's head as it is, or a low cycle from an empty FIFO (R141, R142, R143). -/
theorem Emitting.pwmStep {s t : State} {k : Nat} (h : Emitting s k t) (ht : TimingStored t)
    (hrng : (t.pwm.channel t.ch).rng = t.range) : Emitting s k (pwmStep t) := by
  unfold Machine.pwmStep
  split
  · rw [hrng.trans h.range_eq]
    split
    · next w rest hf =>
      obtain ⟨e, he, hw⟩ := h.mem_fifo (w := w) (by simp [hf])
      have hmark : cycleMark w s.range = w := by
        rw [← h.range_eq, ← hw]
        exact if_pos (waveform_le_range ht (by rw [h.waveform_eq]; exact he))
      exact h.pop rfl hf (by dsimp only; rw [hmark])
    · exact h.low rfl rfl rfl
  · exact h

/-- How many elements of the waveform a transfer has moved with SEND's micro-step `e` in progress: none before X7
starts the channel, all of them once it has stopped (R178, R184). -/
def wordsMoved (e : SendStep) (s : State) : Nat :=
  match e with
  | .e4 .w1 => if s.dma.phase = .running then s.dma.next else (waveform s).length
  | .e4 .w2 => (waveform s).length
  | _ => 0

/-- TRANSMIT ends at X7, with the channel started at word 0 (R178, R184). -/
theorem transmitStep_starts {s : State} {r : Region} (x : TransmitStep) (hc : configOk s.cfg = true) (hh : HoldsAll s)
    (ht : TimingStored s) (h : Transmitting r x s) :
    (transmitStep x s).Meets (fun _ _ => True) (fun t => t.dma.phase = .running ∧ t.dma.next = 0)
      (fun _ _ _ => True) := by
  cases x with
  | x1 | x2 => simp only [transmitStep]; split <;> trivial
  | x3 i =>
    simp only [transmitStep]
    split
    · trivial
    · exact Proc.meets_after fun _ _ => trivial
  | x4 j =>
    simp only [transmitStep]
    split
    · trivial
    · split
      · trivial
      · exact Proc.meets_after fun _ _ => trivial
  | x5 => exact Proc.meets_after fun _ _ => trivial
  | x6 =>
    simp only [transmitStep]
    split
    · trivial
    · exact Proc.meets_after fun _ _ => trivial
  | x7 =>
    obtain ⟨hstopped, hstage, hr, -, hblock, hconblk⟩ := h
    obtain ⟨-, hm, -⟩ := id hh
    obtain ⟨r', hr', hspan, hpos, hlt, hlen⟩ := region_spans hc hh ht
    obtain rfl : r' = r := Option.some.inj (hr'.symm.trans hr)
    rw [← hstage] at hlen
    obtain ⟨source, cb, -, hload, hwords⟩ := loadBlock_ok (s := writePriority s.cfg.dmaPriority s) hr hconblk
      (fun off n hle => hspan off n (by omega)) hblock
    have hwords : cb.words = controlWords s.cfg source s.stage.length := hwords
    obtain ⟨hsupported, -, -⟩ := supportedCb_of_words (by omega) (by omega) hwords
    simp only [transmitStep, csWrite_starts hm (regInBlock_fixed hc (by simp)) hstopped hload hsupported, Proc.after]
    exact ⟨rfl, rfl⟩

/-- SEND's micro-steps move no word, and SEND ends with the transfer done and the FIFO empty (R178, R181, R221). -/
theorem sendStep_moved {s : State} (e : SendStep) (hc : configOk s.cfg = true) (hh : HoldsAll s) (ht : TimingStored s)
    (h : LoadedAt e s) :
    (sendStep e s).Meets (fun l t => wordsMoved l t = wordsMoved e s)
      (fun _ => wordsMoved e s = (waveform s).length ∧ s.fifo = []) (fun _ _ _ => True) := by
  cases e with
  | e1 => rfl
  | e2 w => exact Proc.meets_call ((waitStep_meets w s).mono (fun _ _ _ => rfl) (fun _ _ => rfl) fun _ _ _ _ => trivial)
  | e3 x =>
    obtain ⟨r, hr, -⟩ := region_spans hc hh ht
    have htrans : Transmitting r x s := ⟨h.stopped (by simp), h.1 (by simp), hr, h.2.1 x r rfl hr⟩
    refine Proc.meets_call ((transmitStep_starts x hc hh ht htrans).mono (fun _ _ _ => rfl) ?_ fun _ _ _ h => h)
    rintro t ⟨hp, hnext⟩
    simp [wordsMoved, hp, hnext]
  | e4 w =>
    refine Proc.meets_call ((waitStep_meets w s).mono ?_ ?_ fun _ _ _ _ => trivial)
    · rintro l t (⟨rfl, rfl | rfl⟩ | ⟨rfl, rfl, hp, rfl⟩)
      · rfl
      · rfl
      · simp [wordsMoved, hp]
    · rintro t ⟨rfl, hf, rfl⟩
      exact ⟨rfl, hf⟩

theorem Proc.Runs.meets {α : Type} {p : Proc α} {G : α → State → Prop} {D : State → Prop}
    {R : Status → Detail → State → Prop} (h : p.Runs G D R) : p.Meets G D R := by
  cases p with
  | stop f => trivial
  | goto l s | done s | raise st d s => exact h

/-- How far a SEND from `s` has come in `t`: at one of its micro-steps with the words it has moved, or ended with OK and
the whole waveform emitted. -/
def SendStands (s t : State) : Prop :=
  (∃ e, t.pc = .send e ∧ Emitting s (wordsMoved e t) t)
    ∨ t.pc = .idle ∧ t.resp = { status := .ok, detail := .none, payload := [] } ∧ t.fifo = []
      ∧ Emitting s (waveform s).length t

/-- A micro-step takes a SEND in progress on, and neither emits nor moves a word. -/
theorem microStep_sendStands {s t u : State} {e : SendStep} (ho : InOrder t) (hp : t.pc = .send e)
    (h : Emitting s (wordsMoved e t) t) (hu : microStep t = .next u) : SendStands s u := by
  obtain ⟨hc, -, -, hloaded⟩ := id ho
  have hplace : sendPlace t.pc = some e := by rw [hp]; rfl
  obtain ⟨hholds, htiming⟩ := ho.sending hplace
  have hat := (transferLoaded_sending hplace).mp hloaded
  have hruns := (sendStep_runs e hc hholds htiming hat).meets
  have hmoved := sendStep_moved e hc hholds htiming hat
  have hkept {v : State} (hv : SameSetting t v) :
      (v.fb, v.timing) = (t.fb, t.timing) ∧ v.fifo = t.fifo ∧ v.out = t.out := by
    rw [hv]
    exact ⟨rfl, rfl, rfl⟩
  simp only [microStep, hp] at hu
  refine resolve_meets hu ((hruns.and (hmoved.and (sendStep_same e t))).mono ?_ ?_ ?_)
  · rintro l v ⟨-, hsame, hv⟩
    obtain ⟨hset, hf, hout⟩ := hkept hv
    have hnext := h.congr hset hf hout
    rw [← hsame] at hnext
    exact .inl ⟨l, rfl, hnext.congr rfl rfl rfl⟩
  · rintro v ⟨-, ⟨hall, hempty⟩, hv⟩
    obtain ⟨hset, hf, hout⟩ := hkept hv
    rw [hall, h.waveform_eq] at h
    exact .inr ⟨rfl, rfl, hf.trans hempty, h.congr hset hf hout⟩
  · rintro st d v ⟨hraise, -⟩
    exact hraise.elim

/-- A running transfer is that of the waveform, which SEND waits for (R178, R184). -/
theorem InOrder.running {t : State} (h : InOrder t) (hp : t.dma.phase = .running) :
    sendPlace t.pc = some (.e4 .w1) ∧ transferLength t = (waveform t).length
      ∧ ∀ k (hk : k < (waveform t).length),
          busRead (t.dma.cb.source.toNat + 4 * k) t = .ok (.word (sourceWord (waveform t)[k])) := by
  obtain ⟨hc, -, -, hstage, -, hrunning⟩ := id h
  obtain ⟨hplace, r, source, hr, hsource, hwritten, hwords, -⟩ := hrunning hp
  obtain ⟨hholds, htiming⟩ := h.sending hplace
  obtain ⟨r', hr', hspan, hpos, hlt, hlen⟩ := region_spans hc hholds htiming
  obtain rfl : r' = r := Option.some.inj (hr'.symm.trans hr)
  rw [hstage _ hplace (by simp)] at hwritten hwords
  obtain ⟨-, hcb, hcblen⟩ := supportedCb_of_words (by omega) (by omega) hwords
  refine ⟨hplace, by unfold transferLength; omega, fun k hk => ?_⟩
  have hword := hwritten k _ hk ((congrArg (·[k]?) (hstage _ hplace (by simp))).trans (List.getElem?_eq_getElem hk))
  obtain ⟨a, ha, haddr⟩ := busAddr_some (hspan cbBytes 1 (by omega))
  obtain rfl : a = source := Option.some.inj (ha.symm.trans hsource)
  have hcell : t.dma.cb.source.toNat + 4 * k = cellOf r' (cbBytes + 4 * k) := by
    rw [hcb, haddr]
    unfold cellOf
    omega
  rw [hcell]
  exact busRead_word hr (hspan _ _ (by omega)) (by unfold cbBytes; omega) hword

/-- The channel takes a SEND in progress on by one element, by its end, or not at all (R184). -/
theorem dmaStep_sendStands {s t u : State} {e : SendStep} (ho : InOrder t) (hp : t.pc = .send e)
    (h : Emitting s (wordsMoved e t) t) (hu : dmaStep t = .next u) : SendStands s u := by
  have at_e4 (hrun : t.dma.phase = .running) : e = .e4 .w1 := by
    obtain ⟨hplace, -⟩ := ho.running hrun
    rw [hp] at hplace
    exact Option.some.inj hplace
  obtain rfl | ⟨w, hrun, hlt, -, -, hread, rfl⟩ | ⟨-, rfl⟩ | ⟨-, -, rfl⟩ | ⟨hrun, hend, rfl⟩ := dmaStep_cases hu
  · exact .inl ⟨e, hp, h⟩
  · obtain ⟨-, hlen, hwords⟩ := ho.running hrun
    obtain rfl := at_e4 hrun
    have hk : t.dma.next < (waveform t).length := by omega
    rw [hwords _ hk] at hread
    cases hread
    have hmoved : wordsMoved (.e4 .w1) t = t.dma.next := if_pos hrun
    rw [hmoved] at h
    simp only [h.waveform_eq] at hk
    refine .inl ⟨.e4 .w1, hp, ?_⟩
    have hnext := h.move (u := { t with
        fifo := t.fifo ++ [sourceWord (waveform t)[t.dma.next]], dma := { t.dma with next := t.dma.next + 1 } })
      hk rfl (by simp only [h.waveform_eq]) rfl
    simpa [wordsMoved, hrun] using hnext
  · exact .inl ⟨e, hp, h.congr rfl rfl rfl⟩
  · exact .inl ⟨e, hp, h.congr rfl rfl rfl⟩
  · obtain ⟨-, hlen, -⟩ := ho.running hrun
    obtain rfl := at_e4 hrun
    have hmoved : wordsMoved (.e4 .w1) t = (waveform t).length := (if_pos hrun).trans (hend.trans hlen)
    rw [hmoved] at h
    exact .inl ⟨.e4 .w1, hp, h.congr rfl rfl rfl⟩

/-- While SEND is in progress the strip's channel has the range that SETUP stored (R37, R137). -/
theorem InOrder.channel_range {t : State} {e : SendStep} (h : InOrder t) (hp : sendPlace t.pc = some e) :
    (t.pwm.channel t.ch).rng = t.range := by
  obtain ⟨⟨hlife, -⟩, -⟩ := h.sending hp
  obtain ⟨-, -, hhw, -⟩ := h
  have hother : ∀ pin n st, t.pc ≠ .setup pin n st := fun pin n st he => by rw [he] at hp; cases hp
  obtain ⟨entry, -, hch, -, -, -, -, -, -, -, hrng, -⟩ := (hardwareMatches_other hother).mp hhw hlife
  rw [← hch]
  exact hrng (by omega)

/-- Each agent takes a SEND in progress on (R14, R145, R222 (c)). -/
theorem agentStep_sendStands {s t u : State} {a : Agent} (hrun : t.pc ≠ .idle) (h : InOrder t ∧ SendStands s t)
    (hu : agentStep a t = .next u) : InOrder u ∧ SendStands s u := by
  obtain ⟨ho, ⟨e, hp, hemit⟩ | ⟨hidle, -⟩⟩ := h
  · obtain ⟨v, hv, hord, -⟩ := agentStep_inOrder a ho
    cases hv.symm.trans hu
    refine ⟨hord, ?_⟩
    have stays (hseq : a ≠ .seq) (hdma : a ≠ .dma) (hu' : Emitting s (wordsMoved e t) u) : SendStands s u := by
      obtain ⟨w, hw, hframe⟩ := agentStep_around t hseq hdma
      cases hw.symm.trans hu
      have hmoved : wordsMoved e u = wordsMoved e t := by
        rw [hframe]
        rfl
      exact .inl ⟨e, by rw [hframe]; exact hp, by rw [hmoved]; exact hu'⟩
    have hplace : sendPlace t.pc = some e := by rw [hp]; rfl
    cases a with
    | seq => exact microStep_sendStands ho hp hemit hu
    | dma => exact dmaStep_sendStands ho hp hemit hu
    | pwm =>
      cases hu
      obtain ⟨-, htiming⟩ := ho.sending hplace
      exact stays (by simp) (by simp) (hemit.pwmStep htiming (ho.channel_range hplace))
    | clk =>
      cases hu
      refine stays (by simp) (by simp) ?_
      obtain ⟨-, hs⟩ | ⟨-, hs⟩ := clkStep_cases t <;> (rw [hs]; exact hemit.congr rfl rfl rfl)
    | timer =>
      cases hu
      exact stays (by simp) (by simp) (hemit.congr rfl rfl rfl)
    | host =>
      cases hu
      refine stays (by simp) (by simp) ?_
      obtain ⟨acts, n, input, term, hs, -⟩ := hostStep_cases t
      rw [hs]
      exact hemit.congr rfl rfl rfl
    | platform =>
      cases hu
      refine stays (by simp) (by simp) ?_
      obtain ⟨-, hs⟩ | ⟨r, ans, as, n, -, hs⟩ := platformStep_cases t <;> (rw [hs]; exact hemit.congr rfl rfl rfl)
  · exact absurd hidle hrun

/-- A SEND from a state ready to send that has ended has emitted the whole waveform (R145, R222 (c)). -/
theorem performFrom_send {s t : State} (h : ReadyToSend s) (ht : performFrom (.send .e1) s = .next t)
    (hp : t.pc = .idle) : t.resp = { status := .ok, detail := .none, payload := [] } ∧ t.fifo = []
      ∧ Emitting s (waveform s).length t := by
  obtain ⟨-, -, -, -, -, hf⟩ := id h
  have begun : SendStands s (s.setPc (.send .e1)) :=
    .inl ⟨.e1, rfl, rfl, 0, [], le_rfl, hf, (List.append_nil _).symm, .nil _⟩
  unfold performFrom at ht
  split at ht
  · next u rest hu =>
    cases ht
    obtain ⟨-, ⟨e, hrun, -⟩ | ⟨-, hresp, hempty, hemit⟩⟩ :=
      drive_keeps_running (fun _ _ _ => agentStep_sendStands) s.sched _ u rest ⟨h.inOrder, begun⟩ hu
    · exact absurd (hrun.symm.trans hp) (by simp)
    · exact ⟨hresp, hempty, hemit.congr rfl rfl rfl⟩
  · cases ht
  · cases ht

/-- With the whole waveform moved and the FIFO empty, the frame has been emitted. -/
theorem Emitting.complete {s t : State} (h : Emitting s (waveform s).length t) (hf : t.fifo = []) :
    ∃ tail, t.out = s.out ++ tail ∧ Padded s.range (frameCycles s (waveform s)) tail := by
  obtain ⟨-, n, tail, hn, hfifo, hout, hpad⟩ := h
  rw [hf, List.take_length] at hfifo
  have hall : (waveform s).take n = waveform s :=
    List.take_of_length_le (List.drop_eq_nil_iff.mp (List.map_eq_nil_iff.mp hfifo.symm))
  rw [hall] at hpad
  exact ⟨tail, hout, hpad⟩

/-- Settles O39: every agent keeps `SendStands`, at whose end the frame is out with nothing but low cycles added. -/
theorem sendEmitsFrameUnderAnySchedule : Obligations.SendEmitsFrameUnderAnySchedule := by
  intro s t h ht hp
  rw [h.exec_send] at ht
  obtain ⟨hresp, hempty, hemit⟩ := performFrom_send h ht hp
  obtain ⟨tail, hout, hpad⟩ := hemit.complete hempty
  exact ⟨hresp, tail, hout, hpad.sublist, hpad.high, hpad.range⟩

/-! ## SETUP under a named schedule -/

/-- A SETUP that began in `s` stands in `t` as the rules have it: what is held, what is configured, and no model fault
that was not there. -/
structure SetupRuns (s t : State) : Prop where
  cfg : t.cfg = s.cfg
  ok : configOk t.cfg = true
  held : HeldMatch t
  hardware : HardwareMatches t
  fault : t.fault = s.fault

/-- Under the schedule `as` the machine goes from `t` to `u`, where a SETUP that began in `s` still stands. -/
structure Leads (s : State) (as : List Agent) (t u : State) : Prop where
  drive : ∀ rest, drive (as ++ rest) t = Machine.drive rest u
  runs : SetupRuns s u

section Runs
variable {s t u v : State} {pin n : Int} {st : SetupStep}

theorem Leads.refl (h : SetupRuns s t) : Leads s [] t t := ⟨fun _ => rfl, h⟩

theorem Leads.trans {as bs : List Agent} (h : Leads s as t u) (h' : Leads s bs u v) : Leads s (as ++ bs) t v where
  drive rest := by rw [List.append_assoc, h.drive, h'.drive]
  runs := h'.runs

theorem SetupRuns.resources (h : SetupRuns s t) (hp : t.pc = .setup pin n st) : setupResources n t st := by
  have held := h.held
  unfold HeldMatch at held
  rwa [hp] at held

theorem SetupRuns.configured (h : SetupRuns s t) (hp : t.pc = .setup pin n st) : SetupConfigured pin t st :=
  ((hardwareMatches_setup hp).mp h.hardware).2

/-- An agent of SETUP's schedules takes the SETUP on; the channel is not among them. -/
theorem SetupRuns.step {a : Agent} (h : SetupRuns s t) (hp : t.pc = .setup pin n st) (ha : a ≠ .dma)
    (hu : agentStep a t = .next u) : Leads s [a] t u where
  drive rest := drive_cons (by rw [hp]; simp) hu
  runs := by
    have kept : HeldMatch u ∧ u.fault = t.fault := by
      by_cases hseq : a = .seq
      · subst hseq
        refine ⟨microStep_heldMatch h.ok hu h.held, ?_⟩
        simp only [agentStep, microStep, hp] at hu
        exact resolve_meets (P := fun w => w.fault = t.fault) hu
          (setupStep_clean pin n st h.ok (h.resources hp) (h.configured hp)).meets
      · obtain ⟨w, hw, hframe⟩ := agentStep_around t hseq ha
        cases hw.symm.trans hu
        rw [hframe]
        exact ⟨h.held, rfl⟩
    have hcfg := (agentStep_extends hu).cfg
    exact ⟨hcfg.trans h.cfg, by rw [hcfg]; exact h.ok, kept.1, agentStep_hardwareMatches a t u h.ok hu h.hardware,
      kept.2.trans h.fault⟩

/-- A micro-step that moves to a label. -/
theorem SetupRuns.goto {l : SetupStep} (h : SetupRuns s t) (hp : t.pc = .setup pin n st)
    (hl : setupStep pin n st t = .goto l u) : Leads s [.seq] t (u.setPc (.setup pin n l)) :=
  h.step hp (by simp) (by simp only [agentStep, microStep, hp, hl, resolve])

end Runs

/-- PLATFORM's own values: the request that stands there, and the answers it has still to give (R170). -/
def State.platform (t : State) : Exchange × List Answer := (t.exchange, t.answers)

/-- A SETUP that began in `s` has failed in `t` with this status and detail: nothing is held, no request stands at
PLATFORM, and its further answers are `as` (R213, R279). -/
structure SetupFailed (s : State) (err : Status × Detail) (as : List Answer) (t : State) : Prop where
  pc : t.pc = .idle
  resp : t.resp = { status := err.1, detail := err.2, payload := [] }
  life : t.life = .unconfigured
  nothing : HoldsNothing t
  shape : platShape t.plat = emptyShape
  fault : t.fault = s.fault
  platform : t.platform = (.quiet, as)

section Runs
variable {s t u : State} {pin n : Int} {st : SetupStep} {a : Answer} {as : List Answer}

/-- What a micro-step raises ends SETUP with nothing held (R213, R279). -/
theorem SetupRuns.raise {err : Status × Detail} (h : SetupRuns s t) (hp : t.pc = .setup pin n st)
    (hq : QuietAt (.setup pin n st) t) (hr : setupStep pin n st t = .raise err.1 err.2 u) :
    (∀ rest, drive (.seq :: rest) t = .next (raiseError err.1 err.2 u, rest))
      ∧ SetupFailed s err t.answers (raiseError err.1 err.2 u) := by
  have hu : agentStep .seq t = .next (raiseError err.1 err.2 u) := by simp only [agentStep, microStep, hp, hr, resolve]
  obtain ⟨-, -, -, -, hpage, -⟩ := (configOk_iff t.cfg).mp h.ok
  have hheld := setupStep_resources pin n st hpage (h.resources hp)
  have hquiet := setupStep_quiet pin n st hq
  have hkept := setupStep_kept pin n st t
  rw [hr] at hheld hquiet hkept
  obtain ⟨hlife, hnothing, hshape⟩ := SetupHolds.holdsNothing hheld
  have hanswers : u.answers = t.answers :=
    congrArg (fun (_, _, _, _, answers, _) => answers) (surroundings_of_setupKept hkept)
  refine ⟨fun rest => ?_, rfl, rfl, hlife, hnothing, hshape, (h.step hp (by simp) hu).runs.fault, ?_⟩
  · rw [drive_cons (by rw [hp]; simp) hu, drive_idle rfl]
  · exact Prod.ext hquiet hanswers

/-! ### Requests to PLATFORM -/

/-- How many of SETUP's ten requests PLATFORM has granted before a micro-step (R171, R172). -/
def granted : SetupStep → Nat
  | .s4 _ (.m2 b) => (blocksBefore b).length + 1
  | .s4 _ .m3 => 6
  | .s5 _ _ => 6
  | .s6 _ .a0 => 6
  | .s6 _ .a1 => 6
  | .s6 _ .a2 => 7
  | .s6 _ (.a3 _) => 8
  | .s6 _ (.a4 _ _) => 9
  | .s6 _ (.a5 _ _ _) => 10
  | .s7 _ => 10
  | _ => 0

theorem Proc.call_ask {α β : Type} (r : Request) (stay : α) (k : Answer → State → Proc α) (wrap : α → β)
    (next : State → Proc β) :
    (Proc.ask r stay t k).call wrap next = Proc.ask r (wrap stay) t fun a t => (k a t).call wrap next := by
  unfold Proc.ask
  split <;> rfl

theorem Proc.callUndo_ask {α β : Type} (r : Request) (stay : α) (k : Answer → State → Proc α) (wrap : α → β)
    (undo : State → State) (next : State → Proc β) : (Proc.ask r stay t k).callUndo wrap undo next
      = Proc.ask r (wrap stay) t fun a t => (k a t).callUndo wrap undo next := by
  unfold Proc.ask
  split <;> rfl

/-- After a request granted SETUP stands at the next one, at M3, or past the last (R171, R172). -/
def AfterGrant (pin n : Int) (l : SetupStep) : Prop :=
  asksPlatform (.setup pin n l) = true ∧ granted l ≠ 6 ∨ (∃ e, l = .s4 e .m3) ∨ granted l = 10

/-- At each of its requests SETUP asks, and goes on to the next one or raises the request's error as PLATFORM answers
(R170, R171, R172). -/
theorem setupStep_asks (t : State) (hask : asksPlatform (.setup pin n st) = true) :
    ∃ r k, setupStep pin n st t = Proc.ask r st t k ∧ ∀ a : Answer,
      (a.ok = true → ∃ l v, k a (t.setExchange .quiet) = .goto l v ∧ v.platform = (.quiet, t.answers) ∧ v.cm = t.cm
        ∧ granted l = granted st + 1 ∧ AfterGrant pin n l)
      ∧ (a.ok = false → ∃ err v, requestErrors[granted st]? = some err
        ∧ k a (t.setExchange .quiet) = .raise err.1 err.2 v) := by
  cases st with
  | s1 | s2 | s3 e | s5 e k | s7 e => cases hask
  | s4 e m =>
    cases m with
    | m3 => cases hask
    | m1 =>
      simp only [setupStep, mapStep, Proc.call_ask]
      refine ⟨_, _, rfl, fun a => ⟨fun ha => ?_, fun ha => ?_⟩⟩ <;> simp only [ha, Proc.call]
      · exact ⟨_, _, rfl, rfl, rfl, rfl, .inl ⟨rfl, by simp [granted, blocksBefore, allBlocks]⟩⟩
      · exact ⟨_, _, rfl, rfl⟩
    | m2 b =>
      simp only [setupStep, mapStep, Proc.call_ask]
      refine ⟨_, _, rfl, fun a => ⟨fun ha => ?_, fun ha => ?_⟩⟩ <;> simp only [ha, Proc.call]
      · refine ⟨_, _, rfl, rfl, rfl, ?_⟩
        cases b with
        | gpio | cm | pwm | timer => exact ⟨rfl, .inl ⟨rfl, by simp [granted, nextBlock, blocksBefore, allBlocks]⟩⟩
        | dma => exact ⟨rfl, .inr (.inl ⟨e, rfl⟩)⟩
      · cases b <;> exact ⟨_, _, rfl, rfl⟩
  | s6 e al =>
    cases al with
    | a0 | a5 hd b v => cases hask
    | a1 | a2 | a3 hd =>
      simp only [setupStep, allocateStep, Proc.callUndo_ask]
      refine ⟨_, _, rfl, fun a => ⟨fun ha => ?_, fun ha => ?_⟩⟩ <;> simp only [ha, Proc.callUndo]
      · exact ⟨_, _, rfl, rfl, rfl, rfl, .inl ⟨rfl, by simp [granted]⟩⟩
      · exact ⟨_, _, rfl, rfl⟩
    | a4 hd b =>
      simp only [setupStep, allocateStep, Proc.callUndo_ask]
      refine ⟨_, _, rfl, fun a => ⟨fun ha => ?_, fun ha => ?_⟩⟩ <;> simp only [ha, Proc.callUndo]
      · exact ⟨_, _, rfl, rfl, rfl, rfl, .inr (.inr rfl)⟩
      · exact ⟨_, _, rfl, rfl⟩

/-- PLATFORM's step answers with the next answer there is (R170). -/
theorem platformStep_answers {r : Request} (hx : t.platform = (.asked r, a :: as)) :
    platformStep t = { t with exchange := .answered a, answers := as } := by
  obtain ⟨hr, has⟩ := Prod.mk.inj hx
  simp only [platformStep, hr, nextAnswer, has, State.setExchange]

/-- SEQ asks, and PLATFORM answers (R170). -/
theorem SetupRuns.ask (h : SetupRuns s t) (hp : t.pc = .setup pin n st)
    (hask : asksPlatform (.setup pin n st) = true) (hx : t.platform = (.quiet, a :: as)) :
    ∃ u, Leads s [.seq, .platform] t u ∧ u.pc = .setup pin n st ∧ u.platform = (.answered a, as) ∧ u.cm = t.cm := by
  obtain ⟨hq, has⟩ := Prod.mk.inj hx
  obtain ⟨r, k, hk, -⟩ := setupStep_asks t hask
  have asked := h.goto hp (hk.trans (by rw [Proc.ask, hq]))
  have hstep := platformStep_answers (t := (t.setExchange (.asked r)).setPc (.setup pin n st))
    (congrArg (Exchange.asked r, ·) has)
  have answered := asked.runs.step (a := .platform) rfl (by simp) (congrArg Host.Outcome.next hstep)
  exact ⟨_, asked.trans answered, rfl, rfl, rfl⟩

/-- A request granted takes SETUP to the next one (R170, R171, R172). -/
theorem SetupRuns.request_granted (h : SetupRuns s t) (hp : t.pc = .setup pin n st)
    (hask : asksPlatform (.setup pin n st) = true) (hx : t.platform = (.quiet, a :: as)) (ha : a.ok = true) :
    ∃ l u, Leads s [.seq, .platform, .seq] t u ∧ u.pc = .setup pin n l ∧ u.platform = (.quiet, as) ∧ u.cm = t.cm
      ∧ granted l = granted st + 1 ∧ AfterGrant pin n l := by
  obtain ⟨u, hu, hup, hux, hcm⟩ := h.ask hp hask hx
  obtain ⟨hanswered, has⟩ := Prod.mk.inj hux
  obtain ⟨r, k, hk, hgo⟩ := setupStep_asks u hask
  obtain ⟨l, v, hl, hv, hvcm, hg, hafter⟩ := (hgo a).1 ha
  have goes := hu.runs.goto hup (hk.trans (by rw [Proc.ask, hanswered]; exact hl))
  exact ⟨l, _, hu.trans goes, rfl, by rw [← has]; exact hv, hvcm.trans hcm, hg, hafter⟩

/-- A request refused ends SETUP with that request's error (R170, R171, R172). -/
theorem SetupRuns.request_refused (h : SetupRuns s t) (hp : t.pc = .setup pin n st)
    (hask : asksPlatform (.setup pin n st) = true) (hx : t.platform = (.quiet, a :: as)) (ha : a.ok = false) :
    ∃ err u, requestErrors[granted st]? = some err
      ∧ (∀ rest, drive (requests 1 ++ rest) t = .next (u, rest)) ∧ SetupFailed s err as u := by
  obtain ⟨u, hu, hup, hux, -⟩ := h.ask hp hask hx
  obtain ⟨hanswered, has⟩ := Prod.mk.inj hux
  obtain ⟨r, k, hk, hgo⟩ := setupStep_asks u hask
  obtain ⟨err, v, herr, hraise⟩ := (hgo a).2 ha
  obtain ⟨hdrive, hfailed⟩ := hu.runs.raise hup (.inr hask) (hk.trans (by rw [Proc.ask, hanswered]; exact hraise))
  exact ⟨err, _, herr, fun rest => (hu.drive (.seq :: rest)).trans (hdrive rest), by rw [← has]; exact hfailed⟩

/-- Requests granted one after another, inside MAP_OPEN or inside ALLOCATE (R171, R172). -/
theorem SetupRuns.requests_granted (oks : List Answer) : ∀ {st : SetupStep} {t : State}, SetupRuns s t →
    t.pc = .setup pin n st → asksPlatform (.setup pin n st) = true → t.platform = (.quiet, oks ++ as) →
    (∀ a ∈ oks, a.ok = true) → granted st + oks.length ≤ 6 ∨ 6 ≤ granted st ∧ granted st + oks.length ≤ 10 →
    ∃ l u, Leads s (requests oks.length) t u ∧ u.pc = .setup pin n l ∧ u.platform = (.quiet, as) ∧ u.cm = t.cm
      ∧ granted l = granted st + oks.length ∧ (oks = [] ∧ l = st ∨ oks ≠ [] ∧ AfterGrant pin n l) := by
  induction oks with
  | nil => exact fun h hp _ hx _ _ => ⟨_, _, .refl h, hp, hx, rfl, rfl, .inl ⟨rfl, rfl⟩⟩
  | cons a oks ih =>
    intro st t h hp hask hx hoks hroom
    obtain ⟨ha, hrest⟩ := List.forall_mem_cons.mp hoks
    obtain ⟨l, u, hu, hup, hux, hcm, hg, hafter⟩ := h.request_granted hp hask hx ha
    rw [List.length_cons] at hroom ⊢
    cases oks with
    | nil => exact ⟨l, u, hu, hup, hux, hcm, hg, .inr ⟨by simp, hafter⟩⟩
    | cons b oks =>
      rw [List.length_cons] at hroom
      have hnext : asksPlatform (.setup pin n l) = true := by
        obtain ⟨hl, -⟩ | ⟨e, rfl⟩ | hlast := hafter
        · exact hl
        · have hmapped : granted (.s4 e .m3) = 6 := rfl
          omega
        · omega
      obtain ⟨l', v, hv, hvp, hvx, hvcm, hvg, hvafter⟩ :=
        ih hu.runs hup hnext hux hrest (by rw [List.length_cons]; omega)
      obtain ⟨-, hend⟩ := hvafter.resolve_left (by simp)
      exact ⟨l', v, hu.trans hv, hvp, hvx, hvcm.trans hcm, by omega, .inr ⟨by simp, hend⟩⟩

theorem requests_add (i j : Nat) : requests (i + j) = requests i ++ requests j := by
  simp only [requests, List.replicate_add, List.flatten_append]

/-- Requests granted and then one refused, inside MAP_OPEN or inside ALLOCATE (R171, R172). -/
theorem SetupRuns.refuses {oks : List Answer} (h : SetupRuns s t) (hp : t.pc = .setup pin n st)
    (hask : asksPlatform (.setup pin n st) = true) (hx : t.platform = (.quiet, oks ++ a :: as))
    (hoks : ∀ a ∈ oks, a.ok = true) (ha : a.ok = false)
    (hroom : granted st + oks.length < 6 ∨ 6 ≤ granted st ∧ granted st + oks.length < 10) :
    ∃ err u, requestErrors[granted st + oks.length]? = some err
      ∧ (∀ rest, drive (requests (oks.length + 1) ++ rest) t = .next (u, rest)) ∧ SetupFailed s err as u := by
  obtain ⟨l, u, hu, hup, hux, -, hg, hl⟩ := h.requests_granted oks hp hask hx hoks (by omega)
  have hlast : asksPlatform (.setup pin n l) = true := by
    obtain ⟨-, rfl⟩ | ⟨hne, ⟨hl, -⟩ | ⟨e, rfl⟩ | hten⟩ := hl
    · exact hask
    · exact hl
    · have hmapped : granted (.s4 e .m3) = 6 := rfl
      have hpos := List.length_pos_iff.mpr hne
      omega
    · omega
  obtain ⟨err, v, herr, hdrive, hfailed⟩ := hu.runs.request_refused hup hlast hux ha
  rw [hg] at herr
  exact ⟨err, v, herr, fun rest => by rw [requests_add, List.append_assoc, hu.drive, hdrive], hfailed⟩

/-! ### CONFIGURE -/

/-- What a micro-step of CONFIGURE does through the mapped window (R62, R137). -/
def configureEffect (e : PinEntry) (k : ConfigureStep) (t : State) : Proc ConfigureStep :=
  match k with
  | .k1 => .goto .k2 (writeFsel e.pin e.fsel t)
  | .k2 => .goto .k3 (writeCtlGroup e.ch t)
  | .k3 => .goto .k4 (writeCmCtl t.cfg.clkSrc false t)
  | .k4 => .goto (.k4Busy t.clo) t
  | .k4Busy t0 => if flagBusy t then .goto (.k4Time t0) t else .goto .k5 t
  | .k4Time t0 =>
    if t.cfg.busyTimeoutUs ≤ elapsed t0 t.clo then .raise .configurationError .clockBusyTimeout t
    else .goto (.k4Busy t0) t
  | .k5 => .goto .k6 (writeCmDiv t.div 0 t)
  | .k6 => .goto .k7 (writeCmCtl t.cfg.clkSrc true t)
  | .k7 => .goto (.k7Wait t.clo) t
  | .k7Wait t1 => if t.cfg.settleUs ≤ elapsed t1 t.clo then .goto .k8 t else .goto (.k7Wait t1) t
  | .k8 => .goto .k9 (writeRng e.ch t.range t)
  | .k9 => .goto .k10 (writeDmac true t.cfg.dreqThreshold t.cfg.panicThreshold t)
  | .k10 => .done (writePwen e.ch true t)

theorem configureStep_mapped {e : PinEntry} (k : ConfigureStep) (hc : configOk t.cfg = true)
    (he : lookupPin t.cfg pin = some e) (hm : t.mapped = true) : configureStep e k t = configureEffect e k t := by
  obtain ⟨hfsel, hrng⟩ := mem_accessedRegs he
  unfold configureStep
  cases k with
  | k1 => exact Proc.after_regWrite hm (regInBlock_of_configOk hc hfsel)
  | k8 => exact Proc.after_regWrite hm (regInBlock_of_configOk hc hrng)
  | k2 | k9 | k10 => exact Proc.after_regWrite hm (regInBlock_fixed hc (by simp))
  | k3 | k5 | k6 => exact Proc.after_cmWrite hm (regInBlock_fixed hc (by simp))
  | k4 | k4Busy | k4Time | k7 | k7Wait => exact Proc.read_eq hm (regInBlock_fixed hc (by simp))

section Configure
variable {e : PinEntry} {k k' : ConfigureStep}

/-- While SETUP configures, the window is mapped (R172, R212). -/
theorem SetupRuns.configureStep_eq (h : SetupRuns s t) (hp : t.pc = .setup pin n (.s5 e k)) :
    setupStep pin n (.s5 e k) t = (configureEffect e k t).callUndo (.s5 e) mapClose (.goto (.s6 e .a0)) := by
  obtain ⟨he, -⟩ := h.configured hp
  obtain ⟨⟨-, hm, -⟩, -⟩ := h.resources hp
  rw [setupStep, configureStep_mapped k h.ok he hm]

/-- What SETUP's course depends on and CONFIGURE leaves alone. -/
def State.beside (t : State) : Config × Word × Exchange × List Answer := (t.cfg, t.clo, t.exchange, t.answers)

/-- A micro-step of CONFIGURE that moves to a label. -/
theorem SetupRuns.configures (h : SetupRuns s t) (hp : t.pc = .setup pin n (.s5 e k))
    (hk : configureEffect e k t = .goto k' u) :
    ∃ v, Leads s [.seq] t v ∧ v.pc = .setup pin n (.s5 e k') ∧ v.beside = t.beside ∧ v.cm = u.cm := by
  obtain ⟨he, -⟩ := h.configured hp
  obtain ⟨⟨-, hm, -⟩, -⟩ := h.resources hp
  have hframe := configureStep_frame e k t
  rw [configureStep_mapped k h.ok he hm, hk] at hframe
  refine ⟨_, h.goto hp (by rw [h.configureStep_eq hp, hk, Proc.callUndo]), rfl, ?_, rfl⟩
  rw [show u = _ from hframe]
  rfl

/-- From M3 to K4's first look at BUSY: the window is mapped, and K3 has told the clock to stop (R137, R172). -/
theorem SetupRuns.polls (h : SetupRuns s t) (hp : t.pc = .setup pin n (.s4 e .m3)) :
    ∃ u, Leads s (seqSteps 5) t u ∧ u.pc = .setup pin n (.s5 e (.k4Busy t.clo)) ∧ u.beside = t.beside
      ∧ u.cm = { t.cm with src := t.cfg.clkSrc, enab := false } := by
  have m3 := h.goto hp (l := .s5 e .k1) rfl
  obtain ⟨u1, l1, p1, b1, c1⟩ := m3.runs.configures rfl rfl
  obtain ⟨u2, l2, p2, b2, c2⟩ := l1.runs.configures p1 rfl
  obtain ⟨u3, l3, p3, b3, c3⟩ := l2.runs.configures p2 rfl
  obtain ⟨u4, l4, p4, b4, c4⟩ := l3.runs.configures p3 rfl
  have hcm : u2.cm = t.cm := c2.trans c1
  have hb : u2.beside = t.beside := b2.trans b1
  have hbeside := b4.trans (b3.trans hb)
  simp only [State.beside, Prod.mk.injEq] at hb b3
  obtain ⟨hcfg, hclo, -⟩ := hb
  obtain ⟨-, hclo3, -⟩ := b3
  refine ⟨u4, m3.trans (l1.trans (l2.trans (l3.trans l4))), by rw [p4, hclo3, hclo], hbeside, ?_⟩
  rw [c4, c3, writeCmCtl, if_neg (by simp), hcm, hcfg]

theorem configureEffect_k4Busy_clear {t0 : Word} (hb : t.cm.busy = false) :
    configureEffect e (.k4Busy t0) t = .goto .k5 t := by
  simp [configureEffect, flagBusy, hb]

theorem configureEffect_k4Busy_set {t0 : Word} (hb : t.cm.busy = true) :
    configureEffect e (.k4Busy t0) t = .goto (.k4Time t0) t := by
  simp [configureEffect, flagBusy, hb]

/-- K4 sees that the CLK agent has stopped the clock, and SEQ goes on to K7's first look at the timer (R137). -/
theorem SetupRuns.restarts {t0 : Word} (h : SetupRuns s t) (hp : t.pc = .setup pin n (.s5 e (.k4Busy t0))) :
    ∃ u, Leads s (.clk :: seqSteps 4) t u ∧ u.pc = .setup pin n (.s5 e (.k7Wait t.clo)) ∧ u.beside = t.beside := by
  obtain ⟨-, -, -, -, -, henab, -⟩ := h.configured hp
  have hclk : clkStep t = { t with cm := { t.cm with busy := false }, clk := { t.clk with running := false } } :=
    if_neg (by rw [henab (le_refl 4) (by simp [configureIndex])]; simp)
  have clk := h.step (a := .clk) hp (by simp) (congrArg Host.Outcome.next hclk)
  obtain ⟨u1, l1, p1, b1, -⟩ := clk.runs.configures hp (configureEffect_k4Busy_clear rfl)
  obtain ⟨u2, l2, p2, b2, -⟩ := l1.runs.configures p1 rfl
  obtain ⟨u3, l3, p3, b3, -⟩ := l2.runs.configures p2 rfl
  obtain ⟨u4, l4, p4, b4, -⟩ := l3.runs.configures p3 rfl
  have hb : u3.beside = t.beside := b3.trans (b2.trans b1)
  refine ⟨u4, clk.trans (l1.trans (l2.trans (l3.trans l4))), ?_, b4.trans hb⟩
  simp only [State.beside, Prod.mk.injEq] at hb
  rw [p4, hb.2.1]

/-- The timer runs for `m` microseconds (R40). -/
theorem SetupRuns.ticks (m : Nat) : ∀ {t : State}, SetupRuns s t → t.pc = .setup pin n st →
    Leads s (List.replicate m .timer) t { t with clo := t.clo + BitVec.ofNat 32 m } := by
  induction m with
  | zero => intro t h _; simpa using Leads.refl h
  | succ m ih =>
    intro t h hp
    have tick := h.step (a := .timer) (u := timerStep t) hp (by simp) rfl
    have rest := tick.trans (ih tick.runs hp)
    have hclo : (timerStep t).clo + BitVec.ofNat 32 m = t.clo + BitVec.ofNat 32 (m + 1) := by
      simp only [timerStep]
      bv_omega
    rw [hclo] at rest
    exact rest

theorem elapsed_add (t0 : Word) {m : Nat} (hm : m < 2 ^ 32) : elapsed t0 (t0 + BitVec.ofNat 32 m) = m := by
  unfold elapsed
  bv_omega

/-- K7's wait over, SEQ goes on to ALLOCATE's first request (R137, R171). -/
theorem SetupRuns.settles {t1 : Word} (h : SetupRuns s t) (hp : t.pc = .setup pin n (.s5 e (.k7Wait t1)))
    (hset : t.cfg.settleUs ≤ elapsed t1 t.clo) :
    ∃ u, Leads s (seqSteps 5) t u ∧ u.pc = .setup pin n (.s6 e .a1) ∧ u.beside = t.beside := by
  obtain ⟨u1, l1, p1, b1, -⟩ := h.configures hp (if_pos hset)
  obtain ⟨u2, l2, p2, b2, -⟩ := l1.runs.configures p1 rfl
  obtain ⟨u3, l3, p3, b3, -⟩ := l2.runs.configures p2 rfl
  have k10 := l3.runs.goto p3 (l := .s6 e .a0) (l3.runs.configureStep_eq p3)
  obtain ⟨⟨-, -, hregion, -⟩, -⟩ := k10.runs.resources rfl
  have a0 := k10.runs.goto rfl (l := .s6 e .a1) (by
    simp only [setupStep, allocateStep, hregion, Option.isSome_none]
    rfl)
  exact ⟨_, l1.trans (l2.trans (l3.trans (k10.trans a0))), rfl, b3.trans (b2.trans b1)⟩

/-- K4 sees the clock still busy when BUSY_TIMEOUT_US have passed, and raises (R137, R139). -/
theorem SetupRuns.times_out {t0 : Word} (h : SetupRuns s t) (hp : t.pc = .setup pin n (.s5 e (.k4Busy t0)))
    (hb : t.cm.busy = true) (htime : t.cfg.busyTimeoutUs ≤ elapsed t0 t.clo) (hx : t.platform = (.quiet, as)) :
    ∃ u, (∀ rest, drive (seqSteps 2 ++ rest) t = .next (u, rest))
      ∧ SetupFailed s (.configurationError, .clockBusyTimeout) as u ∧ ConfiguredUpTo 4 e u ∧ u.cm = t.cm := by
  obtain ⟨v, hv, hvp, hbeside, hcm⟩ := h.configures hp (configureEffect_k4Busy_set hb)
  simp only [State.beside, Prod.mk.injEq] at hbeside
  obtain ⟨hcfg, hclo, hexchange, hanswers⟩ := hbeside
  obtain ⟨hq, has⟩ := Prod.mk.inj hx
  have hlate : configureEffect e (.k4Time t0) v = .raise .configurationError .clockBusyTimeout v :=
    if_pos (by rw [hcfg, hclo]; exact htime)
  obtain ⟨hdrive, hfailed⟩ := hv.runs.raise (err := (.configurationError, .clockBusyTimeout)) (u := mapClose v) hvp
    (.inl (hexchange.trans hq)) (by rw [hv.runs.configureStep_eq hvp, hlate, Proc.callUndo])
  rw [hanswers, has] at hfailed
  obtain ⟨-, -, hup⟩ := hv.runs.configured hvp
  have hhw := mapClose_hardware v
  simp only [State.hardware, Prod.mk.injEq] at hhw
  obtain ⟨htiming, -, -, hgpio, hcmv, hclk, hpwm⟩ := hhw
  exact ⟨_, fun rest => (hv.drive (.seq :: rest)).trans (hdrive rest), hfailed,
    ConfiguredUpTo.congr (t := raiseError .configurationError .clockBusyTimeout (mapClose v)) htiming
      (Prod.ext hgpio (Prod.ext hcmv (Prod.ext hclk hpwm))) hup, hcmv.trans hcm⟩

end Configure

/-! ### The course of SETUP -/

/-- SETUP begins at S1, with nothing held (R212). -/
theorem SetupRuns.begin (hc : configOk s.cfg = true) (hl : s.life = .unconfigured) (hn : HoldsNothing s)
    (hs : platShape s.plat = emptyShape) : SetupRuns s (s.setPc (.setup pin n .s1)) where
  cfg := rfl
  ok := hc
  held := by
    obtain ⟨hm, hr, hcap, hled, hfb⟩ := hn
    exact ⟨hl, hm, hr, hcap, hled, hfb, hs⟩
  hardware := (hardwareMatches_setup (pin := pin) (n := n) (st := .s1) rfl).mpr ⟨hl, trivial⟩
  fault := rfl

section Course
variable {e : PinEntry} {tm : Timing}

theorem setupStep_s1 (hled : ledCountOk t.cfg n = true) : setupStep pin n .s1 t = .goto .s2 t := if_pos hled

theorem setupStep_s2 (hpin : lookupPin t.cfg pin = some e) : setupStep pin n .s2 t = .goto (.s3 e) t := by
  simp only [setupStep, hpin]

theorem setupStep_s3 (htm : deriveTiming t.cfg = some tm) :
    setupStep pin n (.s3 e) t = .goto (.s4 e .m1) (storeTiming tm t) := by
  simp only [setupStep, htm]

/-- With good arguments SETUP comes to MAP_OPEN's first request (R212). -/
theorem SetupRuns.derives (h : SetupRuns s t) (hp : t.pc = .setup pin n .s1) (hled : ledCountOk s.cfg n = true)
    (hpin : lookupPin s.cfg pin = some e) (htm : deriveTiming s.cfg = some tm) :
    ∃ u, Leads s (seqSteps 3) t u ∧ u.pc = .setup pin n (.s4 e .m1) ∧ u.platform = t.platform ∧ u.cm = t.cm := by
  rw [← h.cfg] at hled hpin htm
  have s1 := h.goto hp (setupStep_s1 hled)
  have s2 := s1.runs.goto rfl (setupStep_s2 hpin)
  have s3 := s2.runs.goto rfl (setupStep_s3 htm)
  exact ⟨_, s1.trans (s2.trans s3), rfl, rfl, rfl⟩

/-- With its six requests granted MAP_OPEN comes to its last step (R172). -/
theorem SetupRuns.maps {oks : List Answer} (h : SetupRuns s t) (hp : t.pc = .setup pin n (.s4 e .m1))
    (hx : t.platform = (.quiet, oks ++ as)) (hlen : oks.length = 6) (hoks : ∀ a ∈ oks, a.ok = true) :
    ∃ u, Leads s (requests 6) t u ∧ u.pc = .setup pin n (.s4 e .m3) ∧ u.platform = (.quiet, as) ∧ u.cm = t.cm := by
  have hzero : granted (.s4 e .m1) = 0 := rfl
  obtain ⟨l, u, hu, hup, hux, hcm, hg, ⟨rfl, -⟩ | ⟨-, ⟨-, hne⟩ | ⟨e', rfl⟩ | hten⟩⟩ :=
    h.requests_granted oks hp rfl hx hoks (by omega)
  · cases hlen
  · omega
  · obtain ⟨hfound, -⟩ := h.configured hp
    obtain ⟨hfound', -⟩ := hu.runs.configured hup
    rw [h.cfg] at hfound
    rw [hu.runs.cfg, hfound] at hfound'
    cases hfound'
    rw [hlen] at hu
    exact ⟨u, hu, hup, hux, hcm⟩
  · omega

/-- From M3 to ALLOCATE's first request (R137). -/
theorem SetupRuns.completes_configure (h : SetupRuns s t) (hp : t.pc = .setup pin n (.s4 e .m3))
    (hset : s.cfg.settleUs < 2 ^ 32) :
    ∃ u, Leads s (configureSchedule s.cfg) t u ∧ u.pc = .setup pin n (.s6 e .a1) ∧ u.platform = t.platform := by
  obtain ⟨u1, l1, p1, b1, -⟩ := h.polls hp
  obtain ⟨u2, l2, p2, b2⟩ := l1.runs.restarts p1
  have l3 := l2.runs.ticks s.cfg.settleUs p2
  have hclo : u2.clo = u1.clo := congrArg (fun (_, clo, _, _) => clo) b2
  obtain ⟨u4, l4, p4, b4⟩ := l3.runs.settles (t1 := u1.clo) p2 (by
    rw [l3.runs.cfg, hclo, elapsed_add _ hset])
  refine ⟨u4, ((l1.trans l2).trans l3).trans l4, p4, ?_⟩
  have hplatform {x y : State} (hb : x.beside = y.beside) : x.platform = y.platform :=
    congrArg (fun (_, _, exchange, answers) => (exchange, answers)) hb
  exact (hplatform b4).trans ((hplatform (x := u2) b2).trans (hplatform b1))

end Course

end Runs

/-- SETUP in an Unconfigured, idle block is the run of its schedule (R211, log 1). -/
theorem exec_setup_of_drive {s u : State} {pin n : Int} {as rest : List Agent} (hp : s.pc = .idle)
    (hl : s.life = .unconfigured) (hs : s.sched = as ++ rest)
    (hd : ∀ rest, drive (as ++ rest) (s.setPc (.setup pin n .s1)) = .next (u, rest)) :
    exec (.setup pin n) s = .next { u with sched := rest } := by
  have hperform : exec (.setup pin n) s = performFrom (.setup pin n .s1) s :=
    dispatch_perform (gate := gateSetup) hp (by rw [hl]; rfl)
  rw [hperform, performFrom, hs, hd]

section Failures
variable {s : State} {pin n : Int} {e : PinEntry} {tm : Timing} {oks as : List Answer}
  (hruns : SetupRuns s (s.setPc (.setup pin n .s1))) (hled : ledCountOk s.cfg n = true)
  (hpin : lookupPin s.cfg pin = some e) (htm : deriveTiming s.cfg = some tm) (hoks : ∀ a ∈ oks, a.ok = true)
include hruns hled hpin htm hoks

/-- A SETUP one of whose requests is refused ends with that request's error (R171, R172). -/
theorem setup_refused {bad : Answer} (hx : s.platform = (.quiet, oks ++ bad :: as)) (hset : s.cfg.settleUs < 2 ^ 32)
    (hlen : oks.length < 10) (hbad : bad.ok = false) :
    ∃ err u, requestErrors[oks.length]? = some err
      ∧ (∀ rest, drive (refusedSchedule s.cfg oks.length ++ rest) (s.setPc (.setup pin n .s1)) = .next (u, rest))
      ∧ SetupFailed s err as u := by
  obtain ⟨t, ht, htp, htx, -⟩ := hruns.derives rfl hled hpin htm
  have hzero : granted (.s4 e .m1) = 0 := rfl
  have hsix : granted (.s6 e .a1) = 6 := rfl
  have hplatform : t.platform = (.quiet, oks ++ bad :: as) := htx.trans hx
  unfold refusedSchedule
  split
  · obtain ⟨err, u, herr, hdrive, hfailed⟩ := ht.runs.refuses htp rfl hplatform hoks hbad (by omega)
    rw [hzero, Nat.zero_add] at herr
    exact ⟨err, u, herr, fun rest => by rw [List.append_assoc, ht.drive, hdrive], hfailed⟩
  · obtain ⟨first, later, rfl, hfirst⟩ : ∃ first later, oks = first ++ later ∧ first.length = 6 :=
      ⟨oks.take 6, oks.drop 6, (List.take_append_drop 6 oks).symm, by rw [List.length_take]; omega⟩
    rw [List.forall_mem_append] at hoks
    rw [List.length_append, hfirst] at hlen ⊢
    rw [List.append_assoc] at hplatform
    obtain ⟨m, hm, hmp, hmx, -⟩ := ht.runs.maps htp hplatform hfirst hoks.1
    obtain ⟨c, hc, hcp, hcx⟩ := hm.runs.completes_configure hmp hset
    obtain ⟨err, u, herr, hdrive, hfailed⟩ :=
      hc.runs.refuses hcp rfl (hcx.trans hmx) hoks.2 hbad (by omega)
    refine ⟨err, u, herr, fun rest => ?_, hfailed⟩
    rw [show 6 + later.length - 5 = later.length + 1 by omega, mapSchedule]
    simp only [List.append_assoc]
    rw [ht.drive, hm.drive, hc.drive, hdrive]

/-- A SETUP whose clock stays busy ends with CLOCK_BUSY_TIMEOUT, and K1 to K3 remain (R137, R139). -/
theorem setup_times_out (hx : s.platform = (.quiet, oks ++ as)) (hbusy : s.cfg.busyTimeoutUs < 2 ^ 32)
    (hb : s.cm.busy = true) (hlen : oks.length = 6) :
    ∃ u, (∀ rest, drive (busySchedule s.cfg ++ rest) (s.setPc (.setup pin n .s1)) = .next (u, rest))
      ∧ SetupFailed s (.configurationError, .clockBusyTimeout) as u ∧ ConfiguredUpTo 4 e u
      ∧ u.cm = { s.cm with src := s.cfg.clkSrc, enab := false } := by
  obtain ⟨t, ht, htp, htx, htcm⟩ := hruns.derives rfl hled hpin htm
  obtain ⟨m, hm, hmp, hmx, hmcm⟩ := ht.runs.maps htp (htx.trans hx) hlen hoks
  obtain ⟨k, hk, hkp, hkb, hkcm⟩ := hm.runs.polls hmp
  have hticks := hk.runs.ticks s.cfg.busyTimeoutUs hkp
  simp only [State.beside, Prod.mk.injEq] at hkb
  obtain ⟨-, hclo, hexchange, hanswers⟩ := hkb
  rw [hm.runs.cfg, hmcm.trans htcm] at hkcm
  obtain ⟨u, hdrive, hfailed, hup, hcm⟩ := hticks.runs.times_out hkp (by rw [hkcm]; exact hb)
    (by rw [hticks.runs.cfg, hclo, elapsed_add _ hbusy]) ((Prod.ext hexchange hanswers).trans hmx)
  refine ⟨u, fun rest => ?_, hfailed, hup, hcm.trans hkcm⟩
  rw [busySchedule, mapSchedule]
  simp only [List.append_assoc]
  rw [ht.drive, hm.drive, hk.drive, hticks.drive, hdrive]

end Failures

/-- Settles O35: each refused request by `setup_refused`, the clock's timeout by `setup_times_out`. -/
theorem setupReportsFailures : Obligations.SetupReportsFailures := by
  refine ⟨?_, ?_, rfl, rfl⟩
  · intro s pin n e tm oks as bad rest err hc hp hl hn hs hx hled hpin htm hset herr hoks hbad has hsched
    have hlen : oks.length < 10 := (List.getElem?_eq_some_iff.mp herr).1
    obtain ⟨err', u, herr', hdrive, hfailed⟩ :=
      setup_refused (.begin hc hl hn hs) hled hpin htm hoks (Prod.ext hx has) hset hlen hbad
    obtain rfl : err' = err := Option.some.inj (herr'.symm.trans herr)
    obtain ⟨hpc, hresp, hlife, hnothing, hshape, hfault, hplatform⟩ := hfailed
    obtain ⟨hquiet, hanswers⟩ := Prod.mk.inj hplatform
    exact ⟨_, exec_setup_of_drive hp hl hsched hdrive, hpc, hresp, hlife, hnothing, hshape, hquiet, hfault, hanswers, rfl⟩
  · intro s pin n e tm oks as rest hc hp hl hn hs hx hled hpin htm hbusy hb hlen hoks has hsched
    obtain ⟨u, hdrive, hfailed, hup, hcm⟩ :=
      setup_times_out (.begin hc hl hn hs) hled hpin htm hoks (Prod.ext hx has) hbusy hb hlen
    obtain ⟨hpc, hresp, hlife, hnothing, hshape, hfault, hplatform⟩ := hfailed
    obtain ⟨-, hanswers⟩ := Prod.mk.inj hplatform
    obtain ⟨hfsel, hgroup, hpwen, -⟩ := hup
    exact ⟨_, exec_setup_of_drive hp hl hsched hdrive, hpc, hresp, hlife, hnothing, hshape, hfsel (by decide),
      hgroup (by decide), hpwen (by decide) (by decide), hcm, hfault, hanswers, rfl⟩

end Sys2Proof.Machine

/-! Settles the DMA sequencer's statements (42_dma_sequencer.md). SUPPORT first: what START does with a control block of
each kind; SEND under its named schedule, in every command that performs it; and the micro-steps that give everything
back. -/

namespace Sys2Proof.Machine

/-! ## TRANSMIT's guards and the channel's START -/

/-- Settles O48: each guard by the branch it takes. -/
theorem transmitGuards : Obligations.TransmitGuards := by
  intro s
  refine ⟨fun hr => ?_, fun hr => ?_, fun hlen => if_pos hlen, fun hlen => ⟨_, if_neg (by omega)⟩, rfl, rfl⟩
  · simp only [transmitStep, hr, Option.isSome_none, Bool.false_eq_true, if_false]
  · exact if_pos (Option.isSome_iff_ne_none.mpr hr)

/-- The control blocks the model gives a meaning to (R185). -/
theorem supportedCb_iff (c : Config) (cb : ControlBlock) : supportedCb c cb = true ↔
    cb.ti = tiValue c ∧ cb.dest = fifoBus c ∧ cb.next = 0 ∧ 0 < cb.length.toNat ∧ cb.length.toNat % 4 = 0 := by
  have hpos : cb.length ≠ 0 ↔ 0 < cb.length.toNat := by
    rw [Nat.pos_iff_ne_zero, Ne, Ne, ← BitVec.toNat_inj]
    rfl
  simp only [supportedCb, Bool.and_eq_true, decide_eq_true_eq, hpos, and_assoc]

/-- START loads a control block the model gives no meaning to, records it and does not run (R185, log 25). -/
theorem dmaStart_unsupported {s : State} {cb : ControlBlock} (hp : s.dma.phase = .stopped)
    (hload : loadBlock s.dma.conblkAd s = .ok (.block cb)) (hcb : supportedCb s.cfg cb = false) :
    dmaStart s = .ok ({ s with dma := { s.dma with cb := cb, next := 0 } }.markFault .unsupportedCb) := by
  simp [dmaStart, hp, hload, hcb]

/-- Settles O51: a supported block by `csWrite_starts`, any other by `dmaStart_unsupported`. -/
theorem dmaStartLoadsBlock : Obligations.DmaStartLoadsBlock := by
  intro s p cb hm hcs hp hload
  rw [← supportedCb_iff]
  refine ⟨csWrite_starts hm hcs hp hload, fun hcb => ?_⟩
  rw [csWrite, if_pos hm, if_pos hcs]
  exact dmaStart_unsupported (s := writePriority p s) hp hload (Bool.eq_false_iff.mpr hcb)

/-! ## Runs of a command by its micro-steps -/

/-- What an agent makes of a state in order is in order (R290). -/
theorem InOrder.agent {a : Agent} {s t : State} (h : InOrder s) (ht : agentStep a s = .next t) : InOrder t := by
  obtain ⟨u, hu, hord, -⟩ := agentStep_inOrder a h
  cases hu.symm.trans ht
  exact hord

/-- Under the schedule `as` the agents take `s` to `t`, whatever follows the schedule goes on from there, and what is in
order stays in order (R14, R290). -/
structure Drives (as : List Agent) (s t : State) : Prop where
  drive : ∀ rest, drive (as ++ rest) s = Machine.drive rest t
  order : InOrder s → InOrder t

/-- The micro-steps of the procedure `step`, performed at the places `wrap` names; at its end the command does `finish`
(R23). -/
structure Performs {α : Type} (step : α → State → Proc α) (wrap : α → Pc) (finish : State → State) : Prop where
  busy : ∀ l, wrap l ≠ .idle
  microStep : ∀ l t, t.pc = wrap l → microStep t = resolve wrap finish (step l t)

/-- CLEANUP performs SEND, and RELEASE follows it (R226). -/
theorem cleanup_performs_send : Performs sendStep (fun e => .cleanup (.c1 (.send e)))
    (State.setPc (.cleanup (.c2 (.l1 .w1)))) where
  busy l := by simp
  microStep e t hp := by
    simp only [microStep, hp, cleanupStep, clearStep]
    cases sendStep e t <;> rfl

theorem cleanup_performs : Performs cleanupStep .cleanup (endCommand []) where
  busy l := by simp
  microStep c t hp := by simp only [microStep, hp]

section Drives
variable {α : Type} {step : α → State → Proc α} {wrap : α → Pc} {finish : State → State} {as bs : List Agent}
  {a : Agent} {s t u : State} {l l' : α}

theorem Drives.refl (s : State) : Drives [] s s := ⟨fun _ => rfl, id⟩

theorem Drives.trans (h : Drives as s t) (h' : Drives bs t u) : Drives (as ++ bs) s u where
  drive rest := by rw [List.append_assoc, h.drive, h'.drive]
  order ho := h'.order (h.order ho)

theorem Drives.agent (hp : s.pc ≠ .idle) (h : agentStep a s = .next t) : Drives [a] s t where
  drive _ := drive_cons hp h
  order ho := ho.agent h

/-- A micro-step that moves to a label. -/
theorem Drives.goto (h : Performs step wrap finish) (hp : s.pc = wrap l) (hl : step l s = .goto l' t) :
    Drives [.seq] s (t.setPc (wrap l')) :=
  .agent (by rw [hp]; exact h.busy l) ((h.microStep l s hp).trans (by rw [hl, resolve]))

/-- One more micro-step of the sequencer alone. -/
theorem Drives.seq {n : Nat} (hd : Drives (seqSteps n) s t) (h : Performs step wrap finish) (hp : t.pc = wrap l)
    (hl : step l t = .goto l' u) : Drives (seqSteps (n + 1)) s (u.setPc (wrap l')) := by
  rw [seqSteps, List.replicate_succ']
  exact hd.trans (.goto h hp hl)

/-- A micro-step that ends the procedure. -/
theorem Drives.done (h : Performs step wrap finish) (hp : s.pc = wrap l) (hl : step l s = .done t) :
    Drives [.seq] s (finish t) :=
  .agent (by rw [hp]; exact h.busy l) ((h.microStep l s hp).trans (by rw [hl, resolve]))

/-- A command that the schedule's first part brings to its end leaves the rest of the schedule (log 1, log 2). -/
theorem Drives.performFrom {pc : Pc} {rest : List Agent} (h : Drives as (s.setPc pc) t) (hs : s.sched = as ++ rest)
    (ht : t.pc = .idle) : performFrom pc s = .next { t with sched := rest } := by
  rw [Machine.performFrom, hs, h.drive, drive_idle ht]

end Drives

/-! ## SEND under its named schedule -/

section WaitIdle
variable {α : Type} {s : State} {place : WaitStep → α} {next : State → Proc α}

/-- W1 passes where the channel is stopped (R181). -/
theorem waitStep_call_w1 (hc : configOk s.cfg = true) (hm : s.mapped = true) (hp : s.dma.phase = .stopped) :
    (waitStep .w1 s).call place next = .goto (place .w2) s := by
  rw [waitStep, Proc.read_eq hm (regInBlock_fixed hc (by simp))]
  simp [flagActive, hp, Proc.call]

/-- W2 passes where the FIFO is empty (R181). -/
theorem waitStep_call_w2 (hc : configOk s.cfg = true) (hm : s.mapped = true) (hf : s.fifo = []) :
    (waitStep .w2 s).call place next = next { s with dmaState := .idle } := by
  rw [waitStep, Proc.read_eq hm (regInBlock_fixed hc (by simp))]
  simp [flagEmpt, hf, Proc.call]

end WaitIdle

/-- How many micro-steps TRANSMIT has left, with `n` elements staged (R178). -/
def transmitLeft (n : Nat) : TransmitStep → Nat
  | .x1 => n + 13
  | .x2 => n + 12
  | .x3 i => n - i + 11
  | .x4 j => 8 - j + 3
  | .x5 => 3
  | .x6 => 2
  | .x7 => 1

/-- How many micro-steps SEND has left until X7 has started the channel, where no wait holds (R178, R221). -/
def leftToStart (n : Nat) : SendStep → Nat
  | .e1 => n + 16
  | .e2 .w1 => n + 15
  | .e2 .w2 => n + 14
  | .e3 x => transmitLeft n x
  | .e4 _ => 0

theorem transmitLeft_pos (n : Nat) (x : TransmitStep) : 0 < transmitLeft n x := by
  cases x <;> simp [transmitLeft]

theorem leftToStart_eq_zero {n : Nat} {e : SendStep} (h : leftToStart n e = 0) : ∃ w, e = .e4 w := by
  cases e with
  | e1 => simp [leftToStart] at h
  | e2 w => cases w <;> simp [leftToStart] at h
  | e3 x => exact absurd h (transmitLeft_pos n x).ne'
  | e4 w => exact ⟨w, rfl⟩

theorem transmitLeft_x3Label (i n : Nat) : transmitLeft n (x3Label i n) = n - i + 11 := by
  unfold x3Label
  split
  · rfl
  · rw [transmitLeft]
    omega

theorem transmitLeft_x4Label (n j : Nat) : transmitLeft n (x4Label j) = 8 - j + 3 := by
  unfold x4Label
  split
  · rfl
  · rw [transmitLeft]
    omega

/-- Each micro-step of TRANSMIT leaves one less, and the last ends it (R178). -/
theorem transmitStep_left {s : State} {r : Region} (x : TransmitStep) (hr : s.region = some r)
    (hx : transmitProgress s r x) :
    (transmitStep x s).Meets (fun l _ => transmitLeft s.stage.length l + 1 = transmitLeft s.stage.length x)
      (fun _ => transmitLeft s.stage.length x = 1) (fun _ _ _ => True) := by
  cases x with
  | x1 => simp only [transmitStep, hr, Option.isSome_some, if_true]; rfl
  | x2 =>
    simp only [transmitStep]
    split
    · trivial
    · rw [Proc.meets_goto, transmitLeft_x3Label, transmitLeft]
      omega
  | x3 i =>
    obtain ⟨hi, -⟩ := hx
    simp only [transmitStep, List.getElem?_eq_getElem hi]
    refine Proc.meets_after fun _ _ => ?_
    rw [Proc.meets_goto, transmitLeft_x3Label, transmitLeft]
    omega
  | x4 j =>
    obtain ⟨hj, -⟩ := hx
    simp only [transmitStep]
    split
    · trivial
    · next source _ =>
      have hlen : j < (controlWords s.cfg source s.stage.length).length := hj
      simp only [List.getElem?_eq_getElem hlen]
      refine Proc.meets_after fun _ _ => ?_
      rw [Proc.meets_goto, transmitLeft_x4Label, transmitLeft]
      omega
  | x5 => exact Proc.meets_after fun _ _ => rfl
  | x6 =>
    simp only [transmitStep]
    split
    · trivial
    · exact Proc.meets_after fun _ _ => rfl
  | x7 => exact Proc.meets_after fun _ _ => rfl

/-- With the channel stopped and the FIFO empty, each micro-step of SEND up to X7 leaves one less (R178, R181, R221). -/
theorem sendStep_left {s : State} {e : SendStep} (hc : configOk s.cfg = true) (hh : HoldsAll s) (h : LoadedAt e s)
    (hf : s.fifo = []) (he : leftToStart (waveform s).length e ≠ 0) :
    (sendStep e s).Meets (fun l _ => leftToStart (waveform s).length l + 1 = leftToStart (waveform s).length e)
      (fun _ => False) (fun _ _ _ => True) := by
  obtain ⟨-, hm, ⟨r, hr, -⟩, -⟩ := hh
  cases e with
  | e1 => rfl
  | e2 w =>
    cases w with
    | w1 =>
      simp only [sendStep, waitStep_call_w1 hc hm (h.stopped (by simp))]
      rfl
    | w2 =>
      simp only [sendStep, waitStep_call_w2 hc hm hf]
      rfl
  | e3 x =>
    obtain ⟨hstage, hx, -⟩ := h
    rw [← hstage (by simp)]
    exact Proc.meets_call ((transmitStep_left x hr (hx x r rfl hr)).mono (fun _ _ hl => hl) (fun _ hl => hl.symm)
      fun _ _ _ h => h)
  | e4 w => exact absurd rfl he

/-- Such a micro-step goes on, moves no word and writes nothing but what SEND writes (R178, R181, R221). -/
theorem sendStep_advances {s : State} {e : SendStep} (hc : configOk s.cfg = true) (hh : HoldsAll s) (ht : TimingStored s)
    (h : LoadedAt e s) (hf : s.fifo = []) (he : leftToStart (waveform s).length e ≠ 0) :
    (sendStep e s).Meets
      (fun l t => leftToStart (waveform s).length l + 1 = leftToStart (waveform s).length e
        ∧ wordsMoved l t = wordsMoved e s ∧ SameSetting s t) (fun _ => False) (fun _ _ _ => False) := by
  have hstep := (sendStep_left hc hh h hf he).and ((sendStep_moved e hc hh ht h).and (sendStep_same e s))
  exact ((sendStep_runs e hc hh ht h).meets.and hstep).mono (fun _ _ hl => hl.2) (fun _ hd => hd.2.1)
    fun _ _ _ hr => hr.1

/-- While SEND is in progress the peripherals are as SETUP left them (R314). -/
theorem InOrder.hardwareReady {t : State} {e : SendStep} (h : InOrder t) (hp : sendPlace t.pc = some e) :
    HardwareReady t := by
  obtain ⟨⟨hlife, -⟩, -⟩ := h.sending hp
  obtain ⟨-, -, hhw, -⟩ := h
  exact (hardwareMatches_other fun pin n st he => by rw [he] at hp; cases hp).mp hhw hlife

/-- With the peripherals as SETUP left them the PWM's cycle step is enabled (R141, R314). -/
theorem HardwareReady.pwmEnabled {t : State} (h : HardwareReady t) : pwmEnabled t = true := by
  obtain ⟨e, -, hch, -, -, hgroup, -, -, -, hclk, -, -, hpwen⟩ := h
  obtain ⟨hmode, -, -, -, husef, hmsen⟩ := hgroup (by decide)
  obtain ⟨-, -, -, -, hgen⟩ := hclk (by decide)
  rw [hch] at hmode husef hmsen hpwen
  exact (pwmEnabled_iff t).mpr ⟨hpwen (by decide), husef, hmsen, hmode, by rw [hgen]⟩

/-- With the peripherals as SETUP left them an empty FIFO asks for a word (R183, R314). -/
theorem HardwareReady.flagDreq {t : State} (h : HardwareReady t) (hc : configOk t.cfg = true) (hf : t.fifo = []) :
    flagDreq t = true := by
  obtain ⟨e, -, -, -, -, -, -, -, -, -, -, hdmac, -⟩ := h
  obtain ⟨henab, hdreq, -⟩ := hdmac (by decide)
  obtain ⟨-, -, -, -, -, -, -, hpos, -⟩ := (configOk_iff t.cfg).mp hc
  have hroom : 0 < t.pwm.dmacDreq := by omega
  simpa [Machine.flagDreq, henab, hf] using hroom

theorem fifoInBlock_of_configOk {c : Config} (hc : configOk c = true) : fifoInBlock c = true := by
  obtain ⟨-, -, -, -, -, -, -, -, -, -, -, -, -, hl⟩ := (configOk_iff c).mp hc
  simp only [layoutOk, Bool.and_eq_true] at hl
  exact hl.2

theorem frameCycles_take_succ (s : State) {w : List Byte} {k : Nat} (hk : k < w.length) :
    frameCycles s (w.take (k + 1)) = frameCycles s (w.take k) ++ [{ mark := sourceWord w[k], range := s.range }] := by
  rw [frameCycles, ← List.take_append_getElem hk, List.map_append]
  rfl

/-- A word within the range is emitted as it is (R141, R142). -/
theorem pwmStep_emits {t : State} {w : Word} {ws : List Word} (he : pwmEnabled t = true)
    (hw : w.toNat ≤ (t.pwm.channel t.ch).rng.toNat) (hf : t.fifo = w :: ws) :
    pwmStep t = { t with fifo := ws, out := t.out ++ [{ mark := w, range := (t.pwm.channel t.ch).rng }] } := by
  simp only [pwmStep, he, if_true, hf, cycleMark, if_pos hw]

/-- Where the channel runs and the FIFO is empty, the DMA moves the next word and the PWM emits it (R141, R184). -/
theorem drives_word {t : State} {w : Word} (hp : t.pc ≠ .idle) (hready : HardwareReady t) (hc : configOk t.cfg = true)
    (hrun : t.dma.phase = .running) (hn : t.dma.next < transferLength t) (hf : t.fifo = [])
    (hread : busRead (t.dma.cb.source.toNat + 4 * t.dma.next) t = .ok (.word w))
    (hw : w.toNat ≤ (t.pwm.channel t.ch).rng.toNat) :
    Drives [.dma, .pwm] t { t with
      fifo := [], dma := { t.dma with next := t.dma.next + 1 }
      out := t.out ++ [{ mark := w, range := (t.pwm.channel t.ch).rng }] } := by
  have hmove := dmaStep_move hrun hn (hready.flagDreq hc hf) (fifoInBlock_of_configOk hc) hread
  rw [hf] at hmove
  exact (Drives.agent (a := .dma) hp hmove).trans
    (.agent (a := .pwm) hp (congrArg Host.Outcome.next (pwmStep_emits hready.pwmEnabled hw rfl)))

/-- `t` is `s` but for what SEND's micro-steps write where no model fault is recorded, and for the output trace (R44,
R221). -/
def SendFrame (s t : State) : Prop :=
  t = { s with
    pc := t.pc, stage := t.stage, resp := t.resp, dmaState := t.dmaState, dma := t.dma, mem := t.mem, out := t.out }

theorem SendFrame.trans {s t u : State} (h : SendFrame s t) (h' : SendFrame t u) : SendFrame s u := by
  unfold SendFrame at *
  rw [h] at h'
  exact h'

/-- A SEND that began in `s`, with the FIFO empty, stands at `e` in `t`, performed at the places `wrap` names: `k` words
of the waveform have been moved and emitted (R221). -/
structure Sending (wrap : SendStep → Pc) (s : State) (k : Nat) (e : SendStep) (t : State) : Prop where
  place : t.pc = wrap e
  order : InOrder t
  moved : wordsMoved e t = k
  emitted : t.out = s.out ++ frameCycles s ((waveform s).take k)
  frame : SendFrame s t

/-- A SEND that began in `s` has run to its end in `t`: the waveform is staged and emitted, and the channel stopped
(R221, R222). -/
structure Sent (s t : State) : Prop where
  stopped : t.dma.phase = .stopped
  idle : t.dmaState = .idle
  staged : t.stage = waveform s
  emitted : t.out = s.out ++ frameCycles s (waveform s)
  frame : SendFrame s t

section Sending
variable {wrap : SendStep → Pc} {finish : State → State} {s t : State} {k : Nat} {e : SendStep}

theorem Sending.begin (h : InOrder s) (hp : s.pc = wrap .e1) : Sending wrap s 0 .e1 s where
  place := hp
  order := h
  moved := rfl
  emitted := by simp [frameCycles]
  frame := rfl

theorem Sending.waveform_eq (h : Sending wrap s k e t) : waveform t = waveform s := by
  rw [h.frame]
  rfl

theorem Sending.fifo_eq (h : Sending wrap s k e t) : t.fifo = s.fifo := by
  rw [h.frame]

/-- With the channel stopped and the FIFO empty, SEND's last WAIT_IDLE passes and SEND ends (R181, R221). -/
theorem drives_lastWait (hsend : Performs sendStep wrap finish) (hp : t.pc = wrap (.e4 .w1)) (hc : configOk t.cfg = true)
    (hm : t.mapped = true) (hstop : t.dma.phase = .stopped) (hf : t.fifo = []) :
    Drives [.seq, .seq] t (finish { t.setPc (wrap (.e4 .w2)) with dmaState := .idle }) :=
  (Drives.goto hsend hp (waitStep_call_w1 hc hm hstop)).trans
    (.done hsend rfl (waitStep_call_w2 (s := t.setPc (wrap (.e4 .w2))) hc hm hf))

variable (hsend : Performs sendStep wrap finish) (hwrap : ∀ e, sendPlace (wrap e) = some e)
include hsend hwrap

/-- Before X7 has started the channel a micro-step goes on to the next (R178, R181, R221). -/
theorem Sending.step (h : Sending wrap s 0 e t) (hf : s.fifo = []) (he : leftToStart (waveform s).length e ≠ 0) :
    ∃ l u, Drives [.seq] t u ∧ Sending wrap s 0 l u
      ∧ leftToStart (waveform s).length l + 1 = leftToStart (waveform s).length e := by
  have hplace : sendPlace t.pc = some e := by rw [h.place, hwrap]
  obtain ⟨hc, -, -, hloaded⟩ := id h.order
  obtain ⟨hholds, htiming⟩ := h.order.sending hplace
  have hat := (transferLoaded_sending hplace).mp hloaded
  obtain ⟨u, hu, hord, hfault⟩ := agentStep_inOrder .seq h.order
  have hadvances := sendStep_advances hc hholds htiming hat (h.fifo_eq.trans hf) (by rw [h.waveform_eq]; exact he)
  obtain ⟨l, hpl, hleft, hmoved, hsame⟩ := resolve_meets
    (P := fun u => ∃ l, u.pc = wrap l ∧ leftToStart (waveform t).length l + 1 = leftToStart (waveform t).length e
      ∧ wordsMoved l u = wordsMoved e t ∧ SameSetting t u) ((hsend.microStep e t h.place).symm.trans hu)
    (hadvances.mono (fun l v ⟨hl, hv, hs⟩ => ⟨l, rfl, hl, hv, hs.trans rfl⟩) (fun _ h => h.elim) fun _ _ _ h => h.elim)
  rw [h.waveform_eq] at hleft
  rw [SameSetting, hfault] at hsame
  have hout : u.out = t.out := by rw [hsame]
  have hframe : SendFrame t u := by
    rw [SendFrame, hout]
    exact hsame
  exact ⟨l, u, .agent (by rw [h.place]; exact hsend.busy e) hu,
    ⟨hpl, hord, hmoved.trans h.moved, hout.trans h.emitted, h.frame.trans hframe⟩, hleft⟩

/-- From E1, or from anywhere before the channel is started, the sequencer alone comes to where it runs from word 0
(R178, R221). -/
theorem Sending.starts (m : Nat) : ∀ {e : SendStep} {t : State}, Sending wrap s 0 e t → s.fifo = [] →
    1 ≤ (waveform s).length → leftToStart (waveform s).length e = m →
    ∃ u, Drives (seqSteps m) t u ∧ Sending wrap s 0 (.e4 .w1) u ∧ u.dma.phase = .running := by
  induction m with
  | zero =>
    intro e t h _ hpos he
    have hmoved := h.moved
    obtain ⟨w, rfl⟩ := leftToStart_eq_zero he
    cases w with
    | w1 =>
      refine ⟨t, .refl t, h, ?_⟩
      by_contra hrun
      rw [wordsMoved, if_neg hrun, h.waveform_eq] at hmoved
      omega
    | w2 =>
      rw [wordsMoved, h.waveform_eq] at hmoved
      omega
  | succ m ih =>
    intro e t h hf hpos he
    obtain ⟨l, u, hu, hnext, hleft⟩ := h.step hsend hwrap hf (by omega)
    obtain ⟨v, hv, hrun⟩ := ih hnext hf hpos (by omega)
    exact ⟨v, hu.trans hv, hrun⟩

/-- A word is moved and emitted (R141, R145, R184). -/
theorem Sending.word (h : Sending wrap s k (.e4 .w1) t) (hrun : t.dma.phase = .running) (hf : s.fifo = [])
    (hk : k < (waveform s).length) :
    ∃ u, Drives [.dma, .pwm] t u ∧ Sending wrap s (k + 1) (.e4 .w1) u ∧ u.dma.phase = .running := by
  have hplace : sendPlace t.pc = some (.e4 .w1) := by rw [h.place, hwrap]
  have hnext : t.dma.next = k := (if_pos hrun).symm.trans h.moved
  obtain ⟨hc, -⟩ := id h.order
  obtain ⟨-, htiming⟩ := h.order.sending hplace
  obtain ⟨-, hlen, hwords⟩ := h.order.running hrun
  have hrng := h.order.channel_range hplace
  simp only [h.waveform_eq] at hlen hwords
  have hmark := waveform_le_range htiming (by rw [h.waveform_eq]; exact List.getElem_mem hk)
  have hdrives := drives_word (by rw [h.place]; exact hsend.busy _) (h.order.hardwareReady hplace) hc hrun (by omega)
    (h.fifo_eq.trans hf) (by rw [hnext]; exact hwords k hk) (by rw [hrng]; exact hmark)
  have hrange : t.range = s.range := by rw [h.frame]
  refine ⟨_, hdrives, ⟨h.place, hdrives.order h.order, ?_, ?_, h.frame.trans ?_⟩, hrun⟩
  · simp [wordsMoved, hrun, hnext]
  · rw [frameCycles_take_succ s hk, h.emitted, hrng, hrange, List.append_assoc]
  · rw [← h.fifo_eq.trans hf]
    rfl

/-- The words left are moved and emitted in turn (R141, R145, R184). -/
theorem Sending.words (m : Nat) : ∀ {k : Nat} {t : State}, Sending wrap s k (.e4 .w1) t → t.dma.phase = .running →
    s.fifo = [] → k + m = (waveform s).length →
    ∃ u, Drives (List.replicate m [Agent.dma, .pwm]).flatten t u ∧ Sending wrap s (waveform s).length (.e4 .w1) u
      ∧ u.dma.phase = .running := by
  induction m with
  | zero =>
    intro k t h hrun _ hk
    obtain rfl : k = (waveform s).length := hk
    exact ⟨t, .refl t, h, hrun⟩
  | succ m ih =>
    intro k t h hrun hf hk
    obtain ⟨u, hu, hnext, hrun'⟩ := h.word hsend hwrap hrun hf (by omega)
    obtain ⟨v, hv, hlast⟩ := ih hnext hrun' hf (by omega)
    exact ⟨v, hu.trans hv, hlast⟩

/-- With all words moved and emitted the channel stops, and SEND's last WAIT_IDLE passes (R181, R184, R222). -/
theorem Sending.ends (h : Sending wrap s (waveform s).length (.e4 .w1) t) (hrun : t.dma.phase = .running)
    (hf : s.fifo = []) : ∃ u, Drives [.dma, .seq, .seq] t (finish u) ∧ Sent s u := by
  have hplace : sendPlace t.pc = some (.e4 .w1) := by rw [h.place, hwrap]
  have hnext : t.dma.next = (waveform s).length := (if_pos hrun).symm.trans h.moved
  obtain ⟨hc, -, -, hstage, -⟩ := id h.order
  obtain ⟨⟨-, hm, -⟩, -⟩ := h.order.sending hplace
  obtain ⟨-, hlen, -⟩ := h.order.running hrun
  rw [h.waveform_eq] at hlen
  have hstop : agentStep .dma t = .next { t with dma := { t.dma with phase := .stopped } } :=
    dmaStep_end hrun (hnext.trans hlen.symm)
  have hdrives := (Drives.agent (by rw [h.place]; exact hsend.busy _) hstop).trans
    (drives_lastWait hsend h.place hc hm rfl (h.fifo_eq.trans hf))
  refine ⟨_, hdrives, rfl, rfl, (hstage _ hplace (by simp)).trans h.waveform_eq, ?_, h.frame.trans rfl⟩
  rw [← List.take_length (l := waveform s)]
  exact h.emitted

/-- SEND under its named schedule, in whichever command performs it: the waveform is staged and emitted, and the command
goes on from SEND's end (R221, R222). -/
theorem drives_send (h : InOrder s) (hp : s.pc = wrap .e1) (hf : s.fifo = []) :
    ∃ u, Drives (sendSchedule s.capacity) s (finish u) ∧ Sent s u := by
  obtain ⟨hholds, htiming⟩ := h.sending (by rw [hp, hwrap])
  obtain ⟨-, -, -, hpos, -, hlen⟩ := region_spans h.1 hholds htiming
  obtain ⟨t, ht, hstarted, hrun⟩ := (Sending.begin h hp).starts hsend hwrap _ hf (by omega) rfl
  obtain ⟨u, hu, hmoved, hrun'⟩ := hstarted.words hsend hwrap (waveform s).length hrun hf (Nat.zero_add _)
  obtain ⟨v, hv, hsent⟩ := hmoved.ends hsend hwrap hrun' hf
  rw [leftToStart, hlen] at ht
  rw [hlen] at hu
  exact ⟨v, (ht.trans hu).trans hv, hsent⟩

end Sending

/-! ## CLEANUP under its named schedule -/

/-- The state after RELEASE, MAP_CLOSE and C4: nothing is held, and the freed region's bytes are gone (R188, R226,
log 7). -/
def State.givenBack (s : State) : State :=
  { s with
    plat := Platform.nothing, mem := [], region := none, capacity := 0, dmaState := .idle, mapped := false
    ledCount := 0, fb := [], life := .unconfigured }

section Release
variable {s : State} (hr : s.region.isSome = true)
include hr

theorem releaseStep_l1 (w : WaitStep) (hm : s.mapped = true) :
    releaseStep (.l1 w) s = (waitStep w s).call .l1 (.goto .l2) := by
  rw [releaseStep, if_pos hr]
  exact if_pos hm

theorem releaseStep_l2 : releaseStep .l2 s = .goto .l3 (platUnmap s) := if_pos hr
theorem releaseStep_l3 : releaseStep .l3 s = .goto .l4 (platUnlock s) := if_pos hr
theorem releaseStep_l4 : releaseStep .l4 s = .goto .l5 (platFree s) := if_pos hr

theorem cleanupStep_l5 : cleanupStep (.c2 .l5) s
    = .goto .c3 { platClose s with region := none, capacity := 0, dmaState := .idle } := by
  rw [cleanupStep, releaseStep, if_pos hr, Proc.call]

end Release

theorem cleanupStep_c3 {s : State} (hm : s.mapped = true) :
    cleanupStep .c3 s = .goto .c4 { dropWindow s with mapped := false } := by
  rw [cleanupStep, mapClose, if_pos hm]

/-- From RELEASE's start, with the channel stopped and the FIFO empty, eight micro-steps give everything back (R188,
R226). -/
theorem drives_givenBack {s : State} {wrap : CleanupStep → Pc} {finish : State → State}
    (h : Performs cleanupStep wrap finish) (hp : s.pc = wrap (.c2 (.l1 .w1))) (hc : configOk s.cfg = true)
    (hm : s.mapped = true) (hr : s.region.isSome = true) (hstop : s.dma.phase = .stopped) (hf : s.fifo = []) :
    Drives (seqSteps 8) s (finish (s.setPc (wrap .c4)).givenBack) := by
  have release {n : Nat} {t u : State} {l l' : ReleaseStep} (d : Drives (seqSteps n) s t) (hp : t.pc = wrap (.c2 l))
      (hr : t.region.isSome = true) (hl : t.region.isSome = true → releaseStep l t = .goto l' u) :
      Drives (seqSteps (n + 1)) s (u.setPc (wrap (.c2 l'))) := d.seq h hp (by rw [cleanupStep, hl hr, Proc.call])
  have waiting := release (n := 0) (.refl s) hp hr fun hr => (releaseStep_l1 hr .w1 hm).trans (waitStep_call_w1 hc hm hstop)
  have waited : Drives (seqSteps 2) s { s with pc := wrap (.c2 .l2), dmaState := .idle } :=
    release waiting rfl hr fun hr => (releaseStep_l1 hr .w2 hm).trans (waitStep_call_w2 hc hm hf)
  have unmapped : Drives (seqSteps 3) s { s with
      pc := wrap (.c2 .l3), dmaState := .idle, plat := { s.plat with mapping := none } } :=
    release waited rfl hr releaseStep_l2
  have unlocked : Drives (seqSteps 4) s { s with
      pc := wrap (.c2 .l4), dmaState := .idle, plat := { s.plat with mapping := none, locked := none } } :=
    release unmapped rfl hr releaseStep_l3
  have freed : Drives (seqSteps 5) s { s with
      pc := wrap (.c2 .l5), dmaState := .idle, mem := []
      plat := { s.plat with mapping := none, locked := none, alloc := none } } :=
    release unlocked rfl hr releaseStep_l4
  have released : Drives (seqSteps 6) s { s with
      pc := wrap .c3, dmaState := .idle, mem := [], region := none, capacity := 0
      plat := { s.plat with mapping := none, locked := none, alloc := none, channel := false } } :=
    freed.seq h rfl (cleanupStep_l5 (by exact hr))
  have closed : Drives (seqSteps 7) s { s with
      pc := wrap .c4, dmaState := .idle, mem := [], region := none, capacity := 0, mapped := false
      plat := Platform.nothing } :=
    released.seq h rfl (cleanupStep_c3 (by exact hm))
  exact closed.trans (.done h (l := .c4) rfl rfl)

/-- R224's first micro-step: every LED is black. -/
def State.blackened (s : State) : State := { s with fb := List.replicate s.ledCount 0 }

theorem cleanupStep_fill (s : State) : cleanupStep (.c1 .fill) s = .goto (.c1 (.send .e1)) s.blackened := rfl

/-- The waveform of a black framebuffer: the mark of a 0 for every bit, and the reset gap (R98, R220, R224). -/
theorem waveform_blackened (s : State) : waveform s.blackened
    = List.replicate (24 * s.ledCount) s.markZero ++ List.replicate s.resetGapLength 0 := by
  have hled : ledElems s.blackened 0 = List.replicate 24 s.markZero := by
    simp [ledElems, bitElem, State.blackened, bitsPerLed, List.map_const']
  have hfb : s.blackened.fb = List.replicate s.ledCount 0 := rfl
  rw [waveform, hfb, List.flatMap_replicate, hled, List.flatten_replicate_replicate, Nat.mul_comm]
  rfl

@[simp] theorem waveform_setPc (pc : Pc) (s : State) : waveform (s.setPc pc) = waveform s := rfl

/-- A state from which SEND can run has CLEANUP's first micro-step in order (R226). -/
theorem ReadyToSend.cleanup_inOrder {s : State} (h : ReadyToSend s) : InOrder (s.setPc (.cleanup (.c1 .fill))) := by
  obtain ⟨hc, -, hholds, hready, hstopped, -⟩ := h
  refine ⟨hc, hholds, (hardwareMatches_other fun _ _ _ he => by cases he).mpr fun _ => ?_, ?_⟩
  · exact HardwareReady.kept (s := s) (.of_hardware rfl) hready
  · exact transferLoaded_of_stopped (fun e he => by cases he) hstopped

/-- CLEANUP under its named schedule: the black frame, and then everything given back (R188, R226). -/
theorem ReadyToSend.drives_cleanup {s : State} (h : ReadyToSend s) :
    ∃ u, Sent (s.blackened.setPc (.cleanup (.c1 (.send .e1)))) u
      ∧ Drives (cleanupSchedule s.capacity) (s.setPc (.cleanup (.c1 .fill)))
          (endCommand [] (u.setPc (.cleanup .c4)).givenBack) := by
  obtain ⟨hc, -, ⟨-, hm, ⟨r, hr, -⟩, -⟩, -, -, hf⟩ := id h
  have filled := Drives.goto cleanup_performs rfl (cleanupStep_fill (s.setPc (.cleanup (.c1 .fill))))
  obtain ⟨u, hu, hsent⟩ := drives_send cleanup_performs_send (fun _ => rfl) (filled.order h.cleanup_inOrder) rfl hf
  have given := drives_givenBack (s := u.setPc (.cleanup (.c2 (.l1 .w1)))) cleanup_performs rfl
    (by rw [hsent.frame]; exact hc) (by rw [hsent.frame]; exact hm) (by rw [hsent.frame]; simp [State.blackened, hr])
    hsent.stopped (by rw [hsent.frame]; exact hf)
  exact ⟨u, hsent, (filled.trans hu).trans given⟩

/-- Settles O46: CLEANUP is the run of its schedule, and what it reaches is `givenBack` of where SEND has sent the black
frame. -/
theorem cleanupCompletes : Obligations.CleanupCompletes := by
  intro s rest h hs
  obtain ⟨-, hp, ⟨hlife, -⟩, -, -, hf⟩ := id h
  obtain ⟨u, hsent, hdrives⟩ := h.drives_cleanup
  have hperform : exec .cleanup s = performFrom (.cleanup (.c1 .fill)) s :=
    dispatch_perform (gate := gateCleanup) hp (by rw [hlife]; rfl)
  have hkept : (u.fifo, u.clk, u.cm, u.pwm, u.gpio, u.fault) = (s.fifo, s.clk, s.cm, s.pwm, s.gpio, s.fault) := by
    rw [hsent.frame]
    rfl
  simp only [Prod.mk.injEq] at hkept
  obtain ⟨hfifo, hclk, hcm, hpwm, hgpio, hfault⟩ := hkept
  have hout := hsent.emitted
  rw [waveform_setPc, waveform_blackened] at hout
  exact ⟨_, hperform.trans (hdrives.performFrom hs rfl), rfl, rfl, rfl, ⟨rfl, rfl, rfl, rfl, rfl⟩, rfl, rfl, rfl,
    hsent.stopped, hfifo.trans hf, hsent.staged.trans (waveform_blackened s), hout, hclk, hcm, hpwm, hgpio, hfault,
    fun hnone => ⟨rfl, hfault.trans hnone⟩, rfl⟩

end Sys2Proof.Machine

/-! Settles the encoder commands' statements (43_encoder_commands.md). SUPPORT first: the waveform's elements; what the
idle sequencer makes of a command, and of one that takes one step; what SETUP can end with, and SETUP under its named
schedule; what a transfer leaves behind, and what it leaves alone under every schedule. -/

namespace Sys2Proof.Machine

/-! ## The waveform, element by element -/

/-- Where every element contributes `m` entries, entry `m * i + k` is the `k`th of the `i`th element. -/
theorem getElem?_flatMap_uniform {α β : Type} {f : α → List β} {m k : Nat} (hf : ∀ a, (f a).length = m) (hk : k < m)
    (l : List α) : ∀ i, (l.flatMap f)[m * i + k]? = l[i]?.bind fun a => (f a)[k]? := by
  induction l with
  | nil => simp
  | cons a l ih =>
    intro i
    rw [List.flatMap_cons]
    cases i with
    | zero => simpa using List.getElem?_append_left (by rw [hf]; exact hk)
    | succ i =>
      rw [List.getElem?_append_right (by rw [hf, Nat.mul_succ]; omega), hf, List.getElem?_cons_succ, ← ih i]
      congr 1
      rw [Nat.mul_succ]
      omega

theorem ledElems_getElem? (s : State) (c : Color) {k : Nat} (hk : k < 24) :
    (ledElems s c)[k]? = some (bitElem s (c.getLsbD (23 - k))) := by
  simp [ledElems, bitsPerLed, hk]

/-- The elements of the LEDs come first: element `24i + k` is that of bit `23 − k` of `fb[i]` (R220). -/
theorem waveform_getElem?_led {s : State} {i k : Nat} {c : Color} (hc : s.fb[i]? = some c) (hk : k < 24) :
    (waveform s)[24 * i + k]? = some (bitElem s (c.getLsbD (23 - k))) := by
  have hled := getElem?_flatMap_uniform (m := 24) (ledElems_length s) hk s.fb i
  rw [hc, Option.bind_some, ledElems_getElem? s c hk] at hled
  rw [waveform, List.getElem?_append_left (List.getElem?_eq_some_iff.mp hled).1]
  exact hled

/-- The reset gap follows them (R220). -/
theorem waveform_getElem?_gap {s : State} {j : Nat} (hj : j < s.resetGapLength) :
    (waveform s)[24 * s.fb.length + j]? = some 0 := by
  have hled : (s.fb.flatMap (ledElems s)).length = 24 * s.fb.length := by
    simp [List.length_flatMap, bitsPerLed, Nat.mul_comm]
  rw [waveform, List.getElem?_append_right (by omega), hled, Nat.add_sub_cancel_left, List.getElem?_replicate,
    if_pos hj]

theorem BuffersFit.waveform_length {s : State} (h : BuffersFit s) : (waveform s).length = s.capacity := by
  obtain ⟨-, hcap, hlen⟩ := h
  rw [Machine.waveform_length, hlen, hcap]

/-- Settles O13: the LEDs' elements by `waveform_getElem?_led`, the gap's by `waveform_getElem?_gap`. -/
theorem waveformElements : Obligations.WaveformElements := by
  intro s h
  obtain ⟨-, hcap, hlen⟩ := id h
  refine ⟨?_, h.waveform_length, fun i k c hc hk => waveform_getElem?_led hc hk, fun j hj => ?_⟩
  · rw [h.waveform_length, hcap, capacityFor, bitsPerLed, Nat.mul_comm]
  · rw [← hlen]
    exact waveform_getElem?_gap hj

/-! ## The idle sequencer's command and the gate -/

/-- Settles O19: the step draws SEQ, which finds the command. -/
theorem stepRunsDecodedCommand : Obligations.StepRunsDecodedCommand := by
  intro s i rest as hc hp hs ht hd
  have hdraw : nextAgent s = (.seq, { s with sched := as }) := by simp only [nextAgent, hs]
  have hfetch : fetch { s with sched := as } = .command i { s with sched := as, input := rest } := by
    have hdue : terminationDue { s with sched := as } = false := ht
    have hdecode : decode { s with sched := as }.input = .command i rest := hd
    simp only [fetch, hdue, hdecode, Bool.false_eq_true, if_false]
  have hidle : { s with sched := as }.pc = .idle := hp
  rw [step, if_pos hc, hdraw]
  show seqStep _ = _
  rw [seqStep, if_pos hidle, hfetch]

/-- The gate of each command (R211). -/
def gateOf : Instr → Life → Gate
  | .setup _ _ => gateSetup
  | .cleanup => gateCleanup
  | .hsbToRgb _ _ _ => gateAlways
  | _ => gateReady

/-- What each command does where its gate lets it through (R211). -/
def performOf : Instr → State → Host.Outcome State Fault Refusal
  | .setup pin n, s => performFrom (.setup pin n .s1) s
  | .setColor index r g b, s => .next (endCommand [] (setEntry index r g b s))
  | .setColorHsb index hue sat v, s =>
    .next (endCommand [] (setEntry index (hsbColor hue sat v).1 (hsbColor hue sat v).2.1 (hsbColor hue sat v).2.2 s))
  | .send, s => performFrom (.send .e1) s
  | .clearAll, s => performFrom (.clearAll .fill) s
  | .cleanup, s => performFrom (.cleanup (.c1 .fill)) s
  | .encode, s => .next (endCommand (encodePayload s) s)
  | .hsbToRgb h sat v, s => .next (endCommand (rgbBytes (hsbColor h sat v)) s)

theorem exec_eq_dispatch (i : Instr) (s : State) : exec i s = dispatch (gateOf i) (performOf i) s := by
  cases i <;> rfl

section Gate
variable {i : Instr} {s t : State}

theorem exec_perform (hp : s.pc = .idle) (hg : gateOf i s.life = .perform) : exec i s = performOf i s := by
  rw [exec_eq_dispatch, dispatch_perform hp hg]

theorem exec_reply {st : Status} {d : Detail} (hp : s.pc = .idle) (hg : gateOf i s.life = .reply st d) :
    exec i s = .next (s.respond st d []) := by
  rw [exec_eq_dispatch, dispatch_reply hp hg]

/-- A command that gives a next state was performed, or the gate replied (R211). -/
theorem exec_next (h : exec i s = .next t) :
    s.pc = .idle ∧ (performOf i s = .next t ∨ ∃ st d, t = s.respond st d []) := by
  rw [exec_eq_dispatch] at h
  obtain ⟨hp, ⟨-, ht⟩ | ⟨st, d, -, ht⟩⟩ := dispatch_next h
  · exact ⟨hp, .inl ht⟩
  · exact ⟨hp, .inr ⟨st, d, ht⟩⟩

end Gate

/-- Settles O26: each command by its gate, which performs it or replies. -/
theorem lifecycleGate : Obligations.LifecycleGate := by
  refine ⟨fun s hp => ⟨fun hl i => ?halted, fun hl => ?unconfigured, fun hl => ?ready, fun hl h sat v => ?hsb⟩,
    rfl, rfl, rfl, rfl⟩
  case halted =>
    refine exec_reply hp ?_
    rw [hl]
    cases i <;> rfl
  case unconfigured =>
    refine ⟨fun i hi => exec_reply hp ?_, exec_reply hp (by rw [hl]; rfl),
      fun pin n => exec_perform hp (by rw [hl]; rfl)⟩
    rw [hl]
    obtain rfl | rfl | rfl | ⟨x, r, g, b, rfl⟩ | ⟨x, h, sat, v, rfl⟩ := hi <;> rfl
  case ready =>
    have ready {i : Instr} (hg : gateOf i .ready = .perform) : exec i s = performOf i s :=
      exec_perform hp (by rw [hl]; exact hg)
    exact ⟨fun pin n => exec_reply hp (by rw [hl]; rfl), ready rfl, ready rfl, ready rfl, ready rfl,
      fun x r g b => ready rfl, fun x h sat v => ready rfl⟩
  case hsb =>
    refine exec_perform hp ?_
    cases hlife : s.life with
    | unconfigured | ready => rfl
    | halted => exact absurd hlife hl

/-! ## The commands that take one step -/

/-- SET_COLOR's write of the framebuffer (R216). -/
theorem setEntry_eq (index r g b : Int) (s : State) : setEntry index r g b s = { s with
    fb := if 0 ≤ index ∧ index < (s.ledCount : Int) then
        s.fb.set index.toNat (pack s.cfg.wireOrder (clampByte r) (clampByte g) (clampByte b))
      else s.fb } := by
  unfold setEntry indexOf
  split_ifs <;> rfl

theorem exec_setColor {s : State} (index r g b : Int) (hp : s.pc = .idle) (hl : s.life = .ready) :
    exec (.setColor index r g b) s = .next ((setEntry index r g b s).respond .ok .none []) := by
  have hidle : (setEntry index r g b s).pc = .idle := by rw [setEntry_eq]; exact hp
  rw [← endCommand_idle hidle]
  exact exec_perform hp (by rw [hl]; rfl)

theorem exec_setColorHsb {s : State} (index hue sat v : Int) (hp : s.pc = .idle) (hl : s.life = .ready) :
    exec (.setColorHsb index hue sat v) s = exec (.setColor index (hsbColor hue sat v).1 (hsbColor hue sat v).2.1
      (hsbColor hue sat v).2.2) s := by
  rw [exec_perform hp (by rw [hl]; rfl), exec_perform hp (by rw [hl]; rfl), performOf, performOf]

theorem exec_encode {s : State} (hp : s.pc = .idle) (hl : s.life = .ready) :
    exec .encode s = .next (s.respond .ok .none (encodePayload s)) := by
  rw [← endCommand_idle hp]
  exact exec_perform hp (by rw [hl]; rfl)

/-- Settles O27: by `exec_setColor`, the entry by `setEntry_eq`. -/
theorem setColorWritesEntry : Obligations.SetColorWritesEntry := by
  intro s index r g b hp hl
  refine ⟨rfl, rfl, ?_⟩
  rw [exec_setColor index r g b hp hl, setEntry_eq]
  rfl

/-- A share of `v` of at most the whole lies between 0 and `v` (R251). -/
theorem share_bounds {v a m : Int} (hv : 0 ≤ v) (ha : 0 ≤ a) (ham : a ≤ m) (hm : 0 < m) :
    0 ≤ v * a / m ∧ v * a / m ≤ v :=
  ⟨Int.ediv_nonneg (mul_nonneg hv ha) hm.le,
    Int.ediv_le_of_le_mul hm (mul_le_mul_of_nonneg_left ham hv)⟩

/-- On clamped inputs each channel lies between 0 and the brightness (R251, R254 (a)). -/
theorem hsbToRgb_bounds {h s v : Int} (hs : 0 ≤ s) (hs' : s ≤ 255) (hv : 0 ≤ v) :
    let c := hsbToRgb h s v
    (0 ≤ c.1 ∧ c.1 ≤ v) ∧ (0 ≤ c.2.1 ∧ c.2.1 ≤ v) ∧ (0 ≤ c.2.2 ∧ c.2.2 ≤ v) := by
  have hrr : 0 ≤ h % 60 := Int.emod_nonneg h (by decide)
  have hrr' : h % 60 < 60 := Int.emod_lt_of_pos h (by decide)
  have share {k : Int} (hk : 0 ≤ k) (hk' : k ≤ 60) :
      0 ≤ v * (15300 - k * s) / 15300 ∧ v * (15300 - k * s) / 15300 ≤ v := by
    have hlow : 0 ≤ k * s := mul_nonneg hk hs
    have hhigh : k * s ≤ 60 * 255 := mul_le_mul hk' hs' hs (by decide)
    exact share_bounds hv (by omega) (by omega) (by decide)
  have hp : 0 ≤ hsbP s v ∧ hsbP s v ≤ v := share_bounds hv (by omega) (by omega) (by decide)
  have hq : 0 ≤ hsbQ (h % 60) s v ∧ hsbQ (h % 60) s v ≤ v := share hrr hrr'.le
  have ht : 0 ≤ hsbT (h % 60) s v ∧ hsbT (h % 60) s v ≤ v := share (by omega) (by omega)
  have hvv : 0 ≤ v ∧ v ≤ v := ⟨hv, le_rfl⟩
  simp only [hsbToRgb]
  split_ifs
  · exact ⟨hvv, ht, hp⟩
  · exact ⟨hq, hvv, hp⟩
  · exact ⟨hp, hvv, ht⟩
  · exact ⟨hp, hq, hvv⟩
  · exact ⟨ht, hp, hvv⟩
  · exact ⟨hvv, hp, hq⟩

theorem clampByte_bounds (x : Int) : 0 ≤ clampByte x ∧ clampByte x ≤ 255 := by
  unfold clampByte clamp
  omega

theorem clampByte_of_bounds {x : Int} (h : 0 ≤ x) (h' : x ≤ 255) : clampByte x = x := by
  unfold clampByte clamp
  omega

/-- The conversion's channels are channel values, so that SET_COLOR's clamps leave them (R216, R218). -/
theorem clampByte_hsbColor (h s v : Int) :
    clampByte (hsbColor h s v).1 = (hsbColor h s v).1 ∧ clampByte (hsbColor h s v).2.1 = (hsbColor h s v).2.1
      ∧ clampByte (hsbColor h s v).2.2 = (hsbColor h s v).2.2 := by
  obtain ⟨hs, hs'⟩ := clampByte_bounds s
  obtain ⟨hv, hv'⟩ := clampByte_bounds v
  obtain ⟨⟨hr, hr'⟩, ⟨hg, hg'⟩, hb, hb'⟩ := hsbToRgb_bounds (h := clampHue h) hs hs' hv
  exact ⟨clampByte_of_bounds hr (hr'.trans hv'), clampByte_of_bounds hg (hg'.trans hv'),
    clampByte_of_bounds hb (hb'.trans hv')⟩

/-- Settles O28: by `exec_setColorHsb`; SET_COLOR's own clamps leave the colour by `clampByte_hsbColor`. -/
theorem setColorHsbDelegates : Obligations.SetColorHsbDelegates := by
  intro s index hue sat v hp hl
  obtain ⟨hr, hg, hb⟩ := clampByte_hsbColor hue sat v
  have hsame := exec_setColorHsb index hue sat v hp hl
  refine ⟨rfl, rfl, hsame, ?_⟩
  rw [hsame, exec_setColor index _ _ _ hp hl, setEntry_eq, hr, hg, hb]
  rfl

/-- What SET_COLOR and SET_COLOR_HSB may write: one entry of the framebuffer, and the response (R216, R218). -/
structure EntryFrame (index : Int) (s t : State) : Prop where
  frame : t = { s with fb := t.fb, resp := t.resp }
  length : t.fb.length = s.fb.length
  other : ∀ k : Nat, (k : Int) ≠ index → t.fb[k]? = s.fb[k]?
  outside : index < 0 ∨ (s.ledCount : Int) ≤ index → t.fb = s.fb

theorem EntryFrame.respond (index : Int) (st : Status) (d : Detail) (s : State) :
    EntryFrame index s (s.respond st d []) :=
  ⟨rfl, rfl, fun _ _ => rfl, fun _ => rfl⟩

theorem EntryFrame.setEntry {s : State} (index r g b : Int) (hp : s.pc = .idle) :
    EntryFrame index s (endCommand [] (setEntry index r g b s)) := by
  have hidle : (Machine.setEntry index r g b s).pc = .idle := by rw [setEntry_eq]; exact hp
  rw [endCommand_idle hidle, setEntry_eq]
  refine ⟨rfl, ?_, fun k hk => ?_, fun hout => if_neg (by omega)⟩ <;> rw [State.respond_fb] <;> dsimp only <;> split
  · exact List.length_set
  · rfl
  · exact List.getElem?_set_ne (by omega)
  · rfl

/-- Settles O29: SET_COLOR and SET_COLOR_HSB by `EntryFrame`; ENCODE and HSB_TO_RGB only answer. -/
theorem oneStepCommandsFrame : Obligations.OneStepCommandsFrame := by
  refine ⟨fun s t i index hi h => ?_, fun s t i hi h => ?_⟩ <;> obtain ⟨hp, ht | ⟨st, d, rfl⟩⟩ := exec_next h
  · obtain ⟨hframe, hlen, hother, hout⟩ : EntryFrame index s t := by
      obtain ⟨r, g, b, rfl⟩ | ⟨hue, sat, v, rfl⟩ := hi <;> (cases ht; exact .setEntry index _ _ _ hp)
    exact ⟨hframe, hlen, hother, hout, fun a => by rw [hframe]⟩
  · obtain ⟨hframe, hlen, hother, hout⟩ := EntryFrame.respond index st d s
    exact ⟨hframe, hlen, hother, hout, fun a => rfl⟩
  · obtain ⟨payload, rfl⟩ : ∃ payload, t = s.respond .ok .none payload := by
      obtain rfl | ⟨hue, sat, v, rfl⟩ := hi <;> (cases ht; exact ⟨_, endCommand_idle hp _⟩)
    exact ⟨rfl, fun a => rfl⟩
  · exact ⟨rfl, fun a => rfl⟩

/-- Settles O30: by `exec_encode`. -/
theorem encodeAnswersWaveform : Obligations.EncodeAnswersWaveform := by
  intro s hp hl
  exact ⟨rfl, rfl, exec_encode hp hl, BuffersFit.waveform_length, fun p => rfl⟩

/-- After its count ENCODE answers the waveform (R94, R229). -/
theorem encodePayload_getElem? (s : State) (j : Nat) : (encodePayload s)[4 + j]? = (waveform s)[j]? := by
  have hcount : (wordBytes (BitVec.ofNat 32 (waveform s).length)).length = 4 := rfl
  rw [encodePayload, List.getElem?_append_right (by omega), hcount, Nat.add_sub_cancel_left]

/-- Settles O32: ENCODE answers the waveform, LED by LED (`waveform_getElem?_led`), and SET_COLOR set one of them. -/
theorem setColorThenEncode : Obligations.SetColorThenEncode := by
  intro s i r g b hp hl hfit hi
  obtain ⟨-, -, hlen⟩ := hfit
  have hin : 0 ≤ (i : Int) ∧ (i : Int) < (s.ledCount : Int) := by omega
  have hset := exec_setColor (i : Int) r g b hp hl
  rw [setEntry_eq, if_pos hin, Int.toNat_natCast] at hset
  refine ⟨_, _, hset, exec_encode hp hl, fun k hk => ?_, fun j k hj hne hk => ?_⟩ <;>
    rw [State.respond_resp, Nat.add_assoc, encodePayload_getElem?]
  · refine waveform_getElem?_led ?_ hk
    exact List.getElem?_set_self (by omega)
  · have hcolor : s.fb[j]? = some s.fb[j] := List.getElem?_eq_getElem (by omega)
    rw [waveform_getElem?_led hcolor hk]
    refine waveform_getElem?_led ?_ hk
    rw [State.respond_fb, List.getElem?_set_ne (Ne.symm hne)]
    exact hcolor

/-! ## SETUP's errors -/

theorem setup_performs (pin n : Int) : Performs (setupStep pin n) (.setup pin n) (endCommand []) where
  busy l := by simp
  microStep st t hp := by simp only [microStep, hp]

/-- A micro-step that raises ends the command. -/
theorem Drives.raise {α : Type} {step : α → State → Proc α} {wrap : α → Pc} {finish : State → State} {s t : State}
    {l : α} {st : Status} {d : Detail} (h : Performs step wrap finish) (hp : s.pc = wrap l)
    (hl : step l s = .raise st d t) :
    Drives [.seq] s (raiseError st d t) :=
  .agent (by rw [hp]; exact h.busy l) ((h.microStep l s hp).trans (by rw [hl, resolve]))

/-- What a run of agents keeps: what each of their steps keeps (R14). -/
theorem Drives.keeps {P : State → Prop} (hstep : ∀ a s t, P s → agentStep a s = .next t → P t) {as : List Agent}
    {s t : State} (h : Drives as s t) (hs : P s) : P t :=
  drive_keeps hstep (as ++ []) s t [] hs (h.drive [])

section Setup
variable {s t u : State} {pin n : Int} {st l : SetupStep} {e : PinEntry} {tm : Timing} {rest : List Agent}

/-- SETUP in an Unconfigured, idle block is the run of its schedule (R211, log 1). -/
theorem exec_setup_of_drives {as : List Agent} (hp : s.pc = .idle) (hl : s.life = .unconfigured)
    (hs : s.sched = as ++ rest) (h : Drives as (s.setPc (.setup pin n .s1)) u) (hu : u.pc = .idle) :
    exec (.setup pin n) s = .next { u with sched := rest } := by
  rw [exec_perform hp (by rw [hl]; rfl), performOf, h.performFrom hs hu]

/-- An error of an idle block's command leaves only the response (R279). -/
theorem raiseError_setPc (hp : s.pc = .idle) (x : Pc) (st : Status) (d : Detail) :
    raiseError st d (s.setPc x) = s.respond st d [] :=
  State.setPc_self (s := s.respond st d []) hp

theorem drives_s1 (hled : ledCountOk s.cfg n = true) :
    Drives (seqSteps 1) (s.setPc (.setup pin n .s1)) (s.setPc (.setup pin n .s2)) :=
  .goto (t := s.setPc (.setup pin n .s1)) (setup_performs pin n) rfl (setupStep_s1 hled)

theorem drives_s2 (hled : ledCountOk s.cfg n = true) (hpin : lookupPin s.cfg pin = some e) :
    Drives (seqSteps 2) (s.setPc (.setup pin n .s1)) (s.setPc (.setup pin n (.s3 e))) :=
  (drives_s1 hled).seq (u := s.setPc (.setup pin n .s2)) (setup_performs pin n) rfl (setupStep_s2 hpin)

theorem drives_s3 (hled : ledCountOk s.cfg n = true) (hpin : lookupPin s.cfg pin = some e)
    (htm : deriveTiming s.cfg = some tm) :
    Drives (seqSteps 3) (s.setPc (.setup pin n .s1)) ((storeTiming tm s).setPc (.setup pin n (.s4 e .m1))) :=
  (drives_s2 hled hpin).seq (u := storeTiming tm (s.setPc (.setup pin n (.s3 e)))) (setup_performs pin n) rfl
    (setupStep_s3 htm)

/-- A SETUP that raises after `k` micro-steps that have written nothing leaves only the response (R212, R214). -/
theorem exec_setup_raises {k : Nat} {st : SetupStep} {d : Detail} (hp : s.pc = .idle) (hl : s.life = .unconfigured)
    (hs : s.sched = seqSteps (k + 1) ++ rest)
    (h : Drives (seqSteps k) (s.setPc (.setup pin n .s1)) (s.setPc (.setup pin n st)))
    (hraise : setupStep pin n st (s.setPc (.setup pin n st))
      = .raise .configurationError d (s.setPc (.setup pin n st))) :
    exec (.setup pin n) s = .next { s with
      sched := rest, resp := { status := .configurationError, detail := d, payload := [] } } := by
  rw [seqSteps, List.replicate_succ'] at hs
  rw [exec_setup_of_drives hp hl hs (h.trans (.raise (setup_performs pin n) rfl hraise)) rfl, raiseError_setPc hp]
  rfl

/-- Settles O34: each error by the micro-step that raises it, after those before it have passed. -/
theorem setupBadArguments : Obligations.SetupBadArguments := by
  intro s pin n rest hp hl
  refine ⟨fun hled hs => ?_, fun hled hpin hs => ?_, fun hled hpin htm hs => ?_, rfl, rfl, rfl⟩
  · refine exec_setup_raises (k := 0) hp hl hs (.refl _) (if_neg ?_)
    rw [State.setPc_cfg, hled]
    exact Bool.false_ne_true
  · refine exec_setup_raises (k := 1) hp hl hs (drives_s1 hled) ?_
    simp only [setupStep, State.setPc_cfg, hpin]
  · obtain ⟨e, hpin⟩ := Option.ne_none_iff_exists'.mp hpin
    refine exec_setup_raises (k := 2) hp hl hs (drives_s2 hled hpin) ?_
    simp only [setupStep, State.setPc_cfg, htm]

/-! ## SETUP under its named schedule -/

/-- `t` with SETUP at `st`, no request at PLATFORM, its further answers `as`, and `p` held of it. -/
def State.setupAt (pin n : Int) (st : SetupStep) (as : List Answer) (p : Platform) (t : State) : State :=
  { t with pc := .setup pin n st, exchange := .quiet, answers := as, plat := p }

/-- SEQ asks, PLATFORM answers with the next answer there is, and SEQ goes on with it (R170). -/
theorem drives_request {a : Answer} {as : List Answer} {p : Platform} (hp : t.pc = .setup pin n st)
    (hask : asksPlatform (.setup pin n st) = true) (hx : t.platform = (.quiet, a :: as))
    (hgo : setupStep pin n st { t with exchange := .answered a, answers := as }
      = .goto l { t with exchange := .quiet, answers := as, plat := p }) :
    Drives (requests 1) t (t.setupAt pin n l as p) := by
  obtain ⟨hquiet, has⟩ := Prod.mk.inj hx
  obtain ⟨r, k, hk, -⟩ := setupStep_asks t hask
  have asked : Drives [.seq] t ((t.setExchange (.asked r)).setPc (.setup pin n st)) :=
    .goto (setup_performs pin n) hp (hk.trans (by rw [Proc.ask, hquiet]))
  have hanswered : platformStep ((t.setExchange (.asked r)).setPc (.setup pin n st))
      = { t with exchange := .answered a, answers := as } := by
    have hx' : ((t.setExchange (.asked r)).setPc (.setup pin n st)).platform = (.asked r, a :: as) :=
      congrArg (Exchange.asked r, ·) has
    rw [platformStep_answers hx', ← hp]
    rfl
  have answered := asked.trans (.agent (a := .platform) (by simp) (congrArg Host.Outcome.next hanswered))
  have gone := answered.trans (.goto (setup_performs pin n) (l := st) hp hgo)
  exact gone

/-- With its six requests granted MAP_OPEN comes to its last step, the five blocks mapped (R172). -/
theorem drives_maps {as : List Answer} (hp : t.pc = .setup pin n (.s4 e .m1))
    (hx : t.platform = (.quiet, List.replicate 6 { ok := true, value := 0 } ++ as)) :
    Drives (requests 6) t (t.setupAt pin n (.s4 e .m3) as { t.plat with memDevice := true, blocks := allBlocks }) := by
  have block (b : Block) (as : List Answer) : Drives (requests 1)
      (t.setupAt pin n (.s4 e (.m2 b)) ({ ok := true, value := 0 } :: as)
        { t.plat with memDevice := true, blocks := blocksBefore b })
      (t.setupAt pin n (.s4 e (match nextBlock b with | some b' => .m2 b' | none => .m3)) as
        { t.plat with memDevice := true, blocks := blocksBefore b ++ [b] }) :=
    drives_request rfl rfl rfl rfl
  have opened := drives_request (p := { t.plat with memDevice := true, blocks := [] }) hp rfl hx rfl
  exact ((((opened.trans (block .gpio _)).trans (block .cm _)).trans (block .pwm _)).trans (block .timer _)).trans
    (block .dma as)

/-- The timer runs for `m` microseconds (R40). -/
theorem drives_ticks (m : Nat) : ∀ {t : State}, t.pc ≠ .idle →
    Drives (List.replicate m .timer) t { t with clo := t.clo + BitVec.ofNat 32 m } := by
  induction m with
  | zero => intro t _; simpa using Drives.refl t
  | succ m ih =>
    intro t hp
    have tick : Drives [.timer] t (timerStep t) := .agent hp rfl
    have hclo : (timerStep t).clo + BitVec.ofNat 32 m = t.clo + BitVec.ofNat 32 (m + 1) := by
      simp only [timerStep]
      bv_omega
    have rest := tick.trans (ih (t := timerStep t) hp)
    rw [hclo] at rest
    exact rest

/-- A SETUP that came to M3 in `s` is at CONFIGURE's micro-step `k` in `t`: the window is mapped, and nothing else is
written but what CONFIGURE writes (R137, R172). -/
structure Configuring (pin n : Int) (e : PinEntry) (s : State) (k : ConfigureStep) (t : State) : Prop where
  pc : t.pc = .setup pin n (.s5 e k)
  frame : t = { s with
    pc := t.pc, mapped := true, gpio := t.gpio, cm := t.cm, pwm := t.pwm, clk := t.clk, clo := t.clo }

/-- Through the mapped window CONFIGURE writes GPIO, the clock and the PWM's registers (R137). -/
theorem configureEffect_frame {k k' : ConfigureStep} (h : configureEffect e k t = .goto k' u) :
    u = { t with gpio := u.gpio, cm := u.cm, pwm := u.pwm, clk := u.clk } := by
  have frame : (configureEffect e k t).Within
      (fun u => u = { t with gpio := u.gpio, cm := u.cm, pwm := u.pwm, clk := u.clk }) := by
    cases k with
    | k1 | k2 | k4 | k5 | k7 | k8 | k9 | k10 => rfl
    | k3 | k6 => rfl
    | k4Busy | k4Time | k7Wait => simp only [configureEffect]; split <;> rfl
  rw [h] at frame
  exact frame

section Configure
variable {k k' : ConfigureStep} (hc : configOk s.cfg = true) (hpin : lookupPin s.cfg pin = some e)
include hc hpin

theorem Configuring.setupStep_eq (h : Configuring pin n e s k t) :
    setupStep pin n (.s5 e k) t = (configureEffect e k t).callUndo (.s5 e) mapClose (.goto (.s6 e .a0)) := by
  have hcfg : t.cfg = s.cfg := by rw [h.frame]
  have hm : t.mapped = true := by rw [h.frame]
  rw [setupStep, configureStep_mapped k (by rw [hcfg]; exact hc) (by rw [hcfg]; exact hpin) hm]

/-- A micro-step of CONFIGURE that moves to a label. -/
theorem Configuring.goto (h : Configuring pin n e s k t) (hk : configureEffect e k t = .goto k' u) :
    ∃ v, Drives [.seq] t v ∧ Configuring pin n e s k' v ∧ v.cm = u.cm ∧ v.clo = t.clo := by
  have hframe := configureEffect_frame hk
  have hclo : u.clo = t.clo := by rw [hframe]
  refine ⟨_, .goto (setup_performs pin n) h.pc (by rw [h.setupStep_eq hc hpin, hk, Proc.callUndo]), ⟨rfl, ?_⟩, rfl,
    hclo⟩
  rw [hframe, h.frame]
  rfl

/-- From K1 to K4's look at BUSY, once the CLK agent has stopped the clock (R45, R137). -/
theorem Configuring.stopsClock (h : Configuring pin n e s .k1 t) :
    ∃ v t0, Drives (seqSteps 4 ++ [.clk]) t v ∧ Configuring pin n e s (.k4Busy t0) v ∧ v.cm.busy = false := by
  obtain ⟨u1, d1, h1, -⟩ := h.goto hc hpin rfl
  obtain ⟨u2, d2, h2, -⟩ := h1.goto hc hpin rfl
  obtain ⟨u3, d3, h3, hcm3, -⟩ := h2.goto hc hpin rfl
  obtain ⟨u4, d4, h4, hcm4, -⟩ := h3.goto hc hpin rfl
  have henab : u4.cm.enab = false := by rw [hcm4, hcm3]; rfl
  have hclk : clkStep u4 = { u4 with cm := { u4.cm with busy := false }, clk := { u4.clk with running := false } } :=
    if_neg (by rw [henab]; exact Bool.false_ne_true)
  have stopped := (d1.trans (d2.trans (d3.trans d4))).trans
    (.agent (a := .clk) (by rw [h4.pc]; simp) (congrArg Host.Outcome.next hclk))
  exact ⟨_, _, stopped, ⟨h4.pc, by rw [h4.frame]⟩, rfl⟩

/-- From there to K7's look at the timer once SETTLE_US have passed (R137). -/
theorem Configuring.waits {t0 : Word} (h : Configuring pin n e s (.k4Busy t0) t) (hb : t.cm.busy = false)
    (hset : s.cfg.settleUs < 2 ^ 32) :
    ∃ v t1, Drives (seqSteps 4 ++ List.replicate s.cfg.settleUs .timer) t v ∧ Configuring pin n e s (.k7Wait t1) v
      ∧ v.cfg.settleUs ≤ elapsed t1 v.clo := by
  obtain ⟨u1, d1, h1, -⟩ := h.goto hc hpin (configureEffect_k4Busy_clear hb)
  obtain ⟨u2, d2, h2, -⟩ := h1.goto hc hpin rfl
  obtain ⟨u3, d3, h3, -⟩ := h2.goto hc hpin rfl
  obtain ⟨u4, d4, h4, -, hclo⟩ := h3.goto hc hpin rfl
  have ticks := drives_ticks s.cfg.settleUs (t := u4) (by rw [h4.pc]; simp)
  have hcfg : u4.cfg = s.cfg := by rw [h4.frame]
  refine ⟨_, _, (d1.trans (d2.trans (d3.trans d4))).trans ticks, ⟨h4.pc, by rw [h4.frame]⟩, ?_⟩
  simp only [hclo, hcfg, elapsed_add _ hset, le_refl]

/-- From there to ALLOCATE's first request (R137, R171). -/
theorem Configuring.ends {t1 : Word} (h : Configuring pin n e s (.k7Wait t1) t) (hr : s.region = none)
    (hset : t.cfg.settleUs ≤ elapsed t1 t.clo) :
    ∃ v, Drives (seqSteps 5) t v ∧ v.pc = .setup pin n (.s6 e .a1) ∧ v = { s with
      pc := v.pc, mapped := true, gpio := v.gpio, cm := v.cm, pwm := v.pwm, clk := v.clk, clo := v.clo } := by
  obtain ⟨u1, d1, h1, -⟩ := h.goto hc hpin (if_pos hset)
  obtain ⟨u2, d2, h2, -⟩ := h1.goto hc hpin rfl
  obtain ⟨u3, d3, h3, -⟩ := h2.goto hc hpin rfl
  have k10 : Drives [.seq] u3 ((writePwen e.ch true u3).setPc (.setup pin n (.s6 e .a0))) :=
    .goto (setup_performs pin n) h3.pc (h3.setupStep_eq hc hpin)
  have hregion : u3.region = none := by rw [h3.frame]; exact hr
  have a0 : Drives [.seq] ((writePwen e.ch true u3).setPc (.setup pin n (.s6 e .a0)))
      ((writePwen e.ch true u3).setPc (.setup pin n (.s6 e .a1))) :=
    .goto (t := (writePwen e.ch true u3).setPc (.setup pin n (.s6 e .a0))) (setup_performs pin n) rfl (by
      have hnone : ((writePwen e.ch true u3).setPc (.setup pin n (.s6 e .a0))).region = none := hregion
      simp only [setupStep, allocateStep, hnone, Option.isSome_none, Bool.false_eq_true, if_false, Proc.callUndo])
  refine ⟨_, d1.trans (d2.trans (d3.trans (k10.trans a0))), rfl, ?_⟩
  rw [h3.frame]
  rfl

/-- From M3 to ALLOCATE's first request SETUP maps the window and configures the peripherals (R137, R172). -/
theorem drives_configures (hp : s.pc = .setup pin n (.s4 e .m3)) (hr : s.region = none)
    (hset : s.cfg.settleUs < 2 ^ 32) :
    ∃ v, Drives (configureSchedule s.cfg) s v ∧ v.pc = .setup pin n (.s6 e .a1) ∧ v = { s with
      pc := v.pc, mapped := true, gpio := v.gpio, cm := v.cm, pwm := v.pwm, clk := v.clk, clo := v.clo } := by
  have m3 : Drives [.seq] s { s with pc := .setup pin n (.s5 e .k1), mapped := true } :=
    .goto (setup_performs pin n) hp rfl
  have h0 : Configuring pin n e s .k1 { s with pc := .setup pin n (.s5 e .k1), mapped := true } := ⟨rfl, rfl⟩
  obtain ⟨u1, t0, d1, h1, hb⟩ := h0.stopsClock hc hpin
  obtain ⟨u2, t1, d2, h2, htime⟩ := h1.waits hc hpin hb hset
  obtain ⟨u3, d3, hp3, hframe⟩ := h2.ends hc hpin hr htime
  have run := (m3.trans d1).trans (d2.trans d3)
  refine ⟨u3, ?_, hp3, hframe⟩
  have hsched : configureSchedule s.cfg = [.seq] ++ (seqSteps 4 ++ [.clk])
      ++ (seqSteps 4 ++ List.replicate s.cfg.settleUs .timer ++ seqSteps 5) := by
    simp [configureSchedule, seqSteps]
  rw [hsched]
  exact run

end Configure

/-- What is held of PLATFORM once ALLOCATE has obtained its channel, allocation, lock and mapping (R171). -/
def grantedPlatform (c : Config) (size handle lock virt : Nat) (p : Platform) : Platform :=
  { p with
    channel := true
    alloc := some { handle := handle, size := size, align := c.pageSize, flags := c.allocFlags }
    locked := some (lockBase c size lock)
    mapping := some { phys := physAddr c (lockBase c size lock), virt := virt, size := size } }

/-- With its four requests granted SETUP obtains the region and commits (R171, R212 S7). -/
theorem drives_allocates {as : List Answer} {handle lock virt : Nat} (hp : s.pc = .setup pin n (.s6 e .a1))
    (hx : s.platform = (.quiet, [{ ok := true, value := 0 }, { ok := true, value := handle },
      { ok := true, value := lock }, { ok := true, value := virt }] ++ as)) :
    let size := regionSize s.cfg (capacityFor n.toNat s.resetGapLength)
    Drives (requests 4 ++ seqSteps 2) s (endCommand [] (commitSetup pin n e { s with
      exchange := .quiet, answers := as, plat := grantedPlatform s.cfg size handle lock virt s.plat
      region := some { handle := handle, vbase := virt, bbase := lockBase s.cfg size lock, size := size } })) := by
  intro size
  have request {st l : SetupStep} {a : Answer} {as : List Answer} {p p' : Platform}
      (hask : asksPlatform (.setup pin n st) = true)
      (hgo : setupStep pin n st { s.setupAt pin n st (a :: as) p with exchange := .answered a, answers := as }
        = .goto l (s.setupAt pin n l as p' |>.setPc (.setup pin n st))) :
      Drives (requests 1) (s.setupAt pin n st (a :: as) p) (s.setupAt pin n l as p') :=
    drives_request (t := s.setupAt pin n st (a :: as) p) rfl hask rfl hgo
  have channel := drives_request (l := .s6 e .a2) (p := { s.plat with channel := true }) hp rfl hx rfl
  have allocated := channel.trans (request (l := .s6 e (.a3 handle)) (p' := { s.plat with
    channel := true
    alloc := some { handle := handle, size := size, align := s.cfg.pageSize, flags := s.cfg.allocFlags } }) rfl rfl)
  have locked := allocated.trans (request (l := .s6 e (.a4 handle (lockBase s.cfg size lock))) (p' := { s.plat with
    channel := true
    alloc := some { handle := handle, size := size, align := s.cfg.pageSize, flags := s.cfg.allocFlags }
    locked := some (lockBase s.cfg size lock) }) rfl rfl)
  have mapped := locked.trans (request (l := .s6 e (.a5 handle (lockBase s.cfg size lock) virt))
    (p' := grantedPlatform s.cfg size handle lock virt s.plat) rfl rfl)
  have region := mapped.trans (.goto (setup_performs pin n) (l' := .s7 e)
    (t := { s.setupAt pin n (.s6 e (.a5 handle (lockBase s.cfg size lock) virt)) as
        (grantedPlatform s.cfg size handle lock virt s.plat) with
      region := some { handle := handle, vbase := virt, bbase := lockBase s.cfg size lock, size := size } }) rfl rfl)
  have committed := region.trans (.done (setup_performs pin n) (l := .s7 e) rfl rfl)
  exact committed

end Setup

/-- The peripherals match through every run of agents (R138, R314). -/
theorem Drives.hardwareMatches {as : List Agent} {s t : State} (h : Drives as s t) (hc : configOk s.cfg = true)
    (hhw : HardwareMatches s) : HardwareMatches t := by
  have kept (a : Agent) (u v : State) (hu : configOk u.cfg = true ∧ HardwareMatches u) (hv : agentStep a u = .next v) :
      configOk v.cfg = true ∧ HardwareMatches v := by
    obtain ⟨hcu, hu⟩ := hu
    exact ⟨by rw [(agentStep_extends hv).cfg]; exact hcu, agentStep_hardwareMatches a u v hcu hv hu⟩
  obtain ⟨-, ht⟩ := h.keeps kept ⟨hc, hhw⟩
  exact ht

/-- Settles O33: SETUP is the run of its schedule, stretch by stretch, and the peripherals match through it. -/
theorem setupCompletes : Obligations.SetupCompletes := by
  intro s pin n e tm handle lock virt as rest hc hp hl hr hled hpin htm hset hx hanswers hs
  have derived := drives_s3 hled hpin htm
  have mapped : Drives (seqSteps 3 ++ requests 6) (s.setPc (.setup pin n .s1))
      ((storeTiming tm s).setupAt pin n (.s4 e .m3) (List.drop 6 (grantAll handle lock virt) ++ as)
        { s.plat with memDevice := true, blocks := allBlocks }) :=
    derived.trans (drives_maps (t := (storeTiming tm s).setPc (.setup pin n (.s4 e .m1))) rfl (Prod.ext hx hanswers))
  obtain ⟨u, hconf, hup, hframe⟩ := drives_configures (s := (storeTiming tm s).setupAt pin n (.s4 e .m3)
    (List.drop 6 (grantAll handle lock virt) ++ as) { s.plat with memDevice := true, blocks := allBlocks })
    (e := e) hc hpin rfl hr hset
  have hux : u.platform = (.quiet, List.drop 6 (grantAll handle lock virt) ++ as) := by rw [hframe]; rfl
  have run := (mapped.trans hconf).trans (drives_allocates hup hux)
  have hsched : s.sched
      = seqSteps 3 ++ requests 6 ++ configureSchedule s.cfg ++ (requests 4 ++ seqSteps 2) ++ rest := by
    rw [hs, setupSchedule, mapSchedule]
    simp only [List.append_assoc]
  have hw := run.hardwareMatches hc ((hardwareMatches_setup (st := .s1) rfl).mpr ⟨hl, trivial⟩)
  have ready := (hardwareMatches_other (by intro _ _ _ h; cases h)).mp hw rfl
  obtain ⟨_, -, -, hst, -⟩ := id ready
  have hn : 0 ≤ n := by
    simp only [ledCountOk, Bool.and_eq_true, decide_eq_true_eq] at hled
    omega
  obtain ⟨hcfg, hgap, hmapped, hstage, hdma, hfifo, hout, hmem, hfault, hblocks⟩ :
      u.cfg = s.cfg ∧ u.resetGapLength = tm.resetGapLength ∧ u.mapped = true ∧ u.stage = s.stage ∧ u.dma = s.dma
        ∧ u.fifo = s.fifo ∧ u.out = s.out ∧ u.mem = s.mem ∧ u.fault = s.fault
        ∧ (u.plat.memDevice, u.plat.blocks) = (true, allBlocks) := by
    rw [hframe]
    exact ⟨rfl, rfl, rfl, rfl, rfl, rfl, rfl, rfl, rfl, rfl⟩
  have hcap : capacityFor n.toNat u.resetGapLength = n.toNat * 24 + tm.resetGapLength := by rw [hgap]; rfl
  refine ⟨_, exec_setup_of_drives hp hl hsched run rfl, rfl, rfl, rfl, rfl, rfl, Int.toNat_of_nonneg hn,
    TimingStored.congr (s := endCommand [] _) rfl hst, hgap, hcap, hmapped, ?_, rfl, rfl, hstage,
    HardwareReady.kept (s := endCommand [] _) (.of_hardware rfl) ready, ?_, hdma, hfifo, hout, hmem, hfault,
    fun hf => ⟨rfl, hfault.trans hf⟩, rfl, rfl, rfl⟩
  · rw [← hcfg]
    rfl
  · exact congrArg (fun x : Bool × List Block => (x.1, x.2, true, true, true, true)) hblocks

/-! ## Where a command that is performed stands -/

section Performing
variable {α : Type} {step : α → State → Proc α} {wrap : α → Pc} {Q : α → State → Prop} {E I : State → Prop}
  {s t : State} {l : α}

/-- What every step of a command in progress keeps, its run keeps under every schedule (R14, log 1). -/
theorem performFrom_reaches {P : State → Prop} {pc : Pc}
    (hstep : ∀ a u v, u.pc ≠ .idle → P u → agentStep a u = .next v → P v) (hs : P (s.setPc pc))
    (h : performFrom pc s = .next t) : ∃ u rest, t = { u with sched := rest } ∧ P u := by
  unfold performFrom at h
  split at h
  · next u rest hu =>
    cases h
    exact ⟨u, rest, rfl, drive_keeps_running hstep s.sched (s.setPc pc) u rest hs hu⟩
  · cases h
  · cases h

/-- A command in progress stands at a label of its, where `Q` holds; one that has ended leaves `E` (R23). -/
def StandsAt (wrap : α → Pc) (Q : α → State → Prop) (E : State → Prop) (t : State) : Prop :=
  (∃ l, t.pc = wrap l ∧ Q l t) ∨ t.pc = .idle ∧ E t

theorem StandsAt.ended (h : StandsAt wrap Q E t) (hw : ∀ l, wrap l ≠ .idle) (hp : t.pc = .idle) : E t := by
  obtain ⟨l, hl, -⟩ | ⟨-, he⟩ := h
  · exact absurd (hl.symm.trans hp) (hw l)
  · exact he

/-- A command that is performed keeps, under every schedule, what all agents keep, and stands where its own micro-steps
bring it (R14, log 1). -/
theorem Performs.stands (h : Performs step wrap (endCommand []))
    (hinv : ∀ a l u v, u.pc = wrap l → I u → agentStep a u = .next v → I v)
    (hagent : ∀ a l u v, a ≠ .seq → Q l u → agentStep a u = .next v → Q l v)
    (hstep : ∀ l u, u.pc = wrap l → I u → Q l u →
      (step l u).Meets (fun l' v => Q l' (v.setPc (wrap l'))) (fun v => E (endCommand [] v))
        (fun st d v => E (raiseError st d v)))
    (hi : I (s.setPc (wrap l))) (hq : Q l (s.setPc (wrap l))) (hrun : performFrom (wrap l) s = .next t) :
    ∃ u rest, t = { u with sched := rest } ∧ I u ∧ StandsAt wrap Q E u := by
  have kept (a : Agent) (u v : State) (hu : u.pc ≠ .idle) (hst : I u ∧ StandsAt wrap Q E u)
      (hv : agentStep a u = .next v) : I v ∧ StandsAt wrap Q E v := by
    obtain ⟨hc, ⟨l, hl, hq⟩ | ⟨hidle, -⟩⟩ := hst
    · refine ⟨hinv a l u v hl hc hv, ?_⟩
      by_cases ha : a = .seq
      · subst ha
        exact resolve_meets ((h.microStep l u hl).symm.trans hv) (Proc.Meets.mono (hstep l u hl hc hq)
          (fun l' _ hq' => .inl ⟨l', rfl, hq'⟩) (fun _ he => .inr ⟨rfl, he⟩) (fun _ _ _ he => .inr ⟨rfl, he⟩))
      · have hpc : v.pc = u.pc := by rw [agentStep_frame ha hv]
        exact .inl ⟨l, hpc.trans hl, hagent a l u v ha hq hv⟩
    · exact absurd hidle hu
  exact performFrom_reaches kept ⟨hi, .inl ⟨l, rfl, hq⟩⟩ hrun

end Performing

/-! ## SETUP holds everything or nothing -/

/-- Every error of the procedure is one of these (R279). -/
def Proc.RaisesIn {α : Type} (p : Proc α) (errors : List (Status × Detail)) : Prop :=
  p.Meets (fun _ _ => True) (fun _ => True) (fun st d _ => (st, d) ∈ errors)

section Errors
variable {α : Type} {errors : List (Status × Detail)} {s : State}

theorem Proc.raisesIn_ask {r : Request} {stay : α} {k : Answer → State → Proc α}
    (hk : ∀ a t, (k a t).RaisesIn errors) : (Proc.ask r stay s k).RaisesIn errors :=
  Proc.meets_ask (fun _ => trivial) (fun _ _ => trivial) fun a _ => hk a _

theorem Proc.raisesIn_if {c : Bool} {l : α} {t u : State} {st : Status} {d : Detail} (h : (st, d) ∈ errors) :
    (if c then Proc.goto l t else .raise st d u).RaisesIn errors := by
  cases c
  · exact h
  · trivial

theorem mapStep_raisesIn (m : MapStep) : (mapStep m s).RaisesIn setupErrors := by
  cases m with
  | m1 => exact Proc.raisesIn_ask fun a t => Proc.raisesIn_if (by decide)
  | m2 b => exact Proc.raisesIn_ask fun a t => Proc.raisesIn_if (by cases b <;> decide)
  | m3 => trivial

theorem configureStep_raisesIn (e : PinEntry) (k : ConfigureStep) : (configureStep e k s).RaisesIn setupErrors := by
  unfold configureStep
  cases k with
  | k1 | k2 | k3 | k5 | k6 | k8 | k9 | k10 => exact Proc.meets_after fun _ _ => trivial
  | k4 | k7 => exact Proc.meets_read (fun _ _ => trivial) fun _ => trivial
  | k4Busy | k7Wait => exact Proc.meets_read (fun _ _ => by split <;> trivial) fun _ => trivial
  | k4Time =>
    refine Proc.meets_read (fun _ _ => ?_) fun _ => trivial
    split
    · show _ ∈ setupErrors
      decide
    · trivial

/-- With no region held (R70) ALLOCATE fails only where PLATFORM refuses a request (R171). -/
theorem allocateStep_raisesIn {size : Nat} {a : AllocateStep} (h : a = .a0 → s.region = none) :
    (allocateStep size a s).RaisesIn setupErrors := by
  cases a with
  | a0 =>
    simp only [allocateStep, h rfl, Option.isSome_none, Bool.false_eq_true, if_false]
    trivial
  | a1 | a2 | a3 h | a4 h b => exact Proc.raisesIn_ask fun a t => Proc.raisesIn_if (by decide)
  | a5 h b v => trivial

theorem setupStep_raisesIn {pin n : Int} {st : SetupStep} (h : setupResources n s st) :
    (setupStep pin n st s).RaisesIn setupErrors := by
  cases st with
  | s1 => exact Proc.raisesIn_if (by decide)
  | s2 =>
    simp only [setupStep]
    split
    · show _ ∈ setupErrors
      decide
    · trivial
  | s3 e =>
    simp only [setupStep]
    split
    · show _ ∈ setupErrors
      decide
    · trivial
  | s4 e m => exact Proc.meets_call (mapStep_raisesIn m)
  | s5 e k => exact Proc.meets_callUndo (configureStep_raisesIn e k)
  | s6 e a =>
    have hregion : a = .a0 → s.region = none := by
      rintro rfl
      obtain ⟨⟨-, -, hr, -⟩, -⟩ := h
      exact hr
    exact Proc.meets_callUndo (allocateStep_raisesIn hregion)
  | s7 e => trivial

end Errors

/-- SETUP ends at its commit, which writes the operands (R212 S7). -/
theorem setupStep_commits {pin n : Int} {st : SetupStep} {s : State} (h : setupResources n s st) :
    (setupStep pin n st s).Meets (fun _ _ => True) (fun t => t.pin = pin ∧ (t.ledCount : Int) = n)
      (fun _ _ _ => True) := by
  cases st with
  | s1 | s2 | s3 => simp only [setupStep]; split <;> trivial
  | s4 e m => exact Proc.meets_call (by cases mapStep m s <;> trivial)
  | s5 e k => exact Proc.meets_callUndo (by cases configureStep e k s <;> trivial)
  | s6 e a => exact Proc.meets_callUndo (by cases allocateStep _ a s <;> trivial)
  | s7 e =>
    obtain ⟨-, -, -, hled, -⟩ := h
    simp only [ledCountOk, Bool.and_eq_true, decide_eq_true_eq] at hled
    exact ⟨rfl, Int.toNat_of_nonneg (by omega)⟩

/-- How a SETUP that was performed ends: everything is held, or nothing (R213, R314). -/
def SetupEnd (pin n : Int) (t : State) : Prop :=
  (t.resp = { status := .ok, detail := .none, payload := [] } ∧ HoldsAll t ∧ t.pin = pin ∧ (t.ledCount : Int) = n)
    ∨ (t.resp.status, t.resp.detail) ∈ setupErrors ∧ t.resp.payload = [] ∧ t.life = .unconfigured ∧ HoldsNothing t
        ∧ platShape t.plat = emptyShape

/-- SETUP keeps at each micro-step what `setupResources` says, and raises only its errors. -/
theorem setupStep_ends {pin n : Int} {st : SetupStep} {s : State} (hpage : 1 ≤ s.cfg.pageSize)
    (h : setupResources n s st) :
    (setupStep pin n st s).Meets (fun l t => setupResources n (t.setPc (.setup pin n l)) l)
      (fun t => SetupEnd pin n (endCommand [] t)) (fun x d t => SetupEnd pin n (raiseError x d t)) := by
  refine (((setupStep_resources pin n st hpage h).and (setupStep_commits h)).and (setupStep_raisesIn h)).mono ?_ ?_ ?_
  · rintro l t ⟨⟨ht, -⟩, -⟩
    exact ht
  · rintro t ⟨⟨ht, hpin, hled⟩, -⟩
    exact .inl ⟨rfl, ht, hpin, hled⟩
  · rintro x d t ⟨⟨ht, -⟩, hx⟩
    exact .inr ⟨hx, rfl, ht.holdsNothing⟩

/-- Settles O36: what SETUP holds stands at each of its micro-steps, and its two ends are the two outcomes. -/
theorem setupAllOrNothing : Obligations.SetupAllOrNothing := by
  intro s t pin n hc hp hl hn hplat h ht
  rw [exec_perform hp (by rw [hl]; rfl)] at h
  obtain ⟨-, -, -, -, hpage, -⟩ := (configOk_iff s.cfg).mp hc
  have begun : setupResources n (s.setPc (.setup pin n .s1)) .s1 := by
    obtain ⟨hm, hr, hcap, hled, hfb⟩ := hn
    exact ⟨hl, hm, hr, hcap, hled, hfb, hplat⟩
  have agents (a : Agent) (st : SetupStep) (u v : State) (ha : a ≠ .seq) (hst : setupResources n u st)
      (hv : agentStep a u = .next v) : setupResources n v st := by
    rw [agentStep_frame ha hv]
    exact hst
  obtain ⟨u, rest, rfl, -, hu⟩ := (setup_performs pin n).stands (I := fun u => u.cfg = s.cfg)
    (Q := fun st u => setupResources n u st) (fun _ _ _ _ _ hu hv => (agentStep_extends hv).cfg.trans hu) agents
    (fun st u _ hcfg hst => setupStep_ends (by rw [hcfg]; exact hpage) hst) rfl begun h
  exact hu.ended (by simp) ht

/-! ## SEND and CLEAR_ALL under their named schedules -/

theorem send_performs : Performs sendStep .send (endCommand []) where
  busy e := by simp
  microStep e t hp := by simp only [microStep, hp]

theorem clear_performs : Performs clearStep .clearAll (endCommand []) where
  busy c := by simp
  microStep c t hp := by simp only [microStep, hp]

/-- CLEAR_ALL performs SEND, and ends with it (R224). -/
theorem clear_performs_send : Performs sendStep (fun e => .clearAll (.send e)) (endCommand []) where
  busy e := by simp
  microStep e t hp := by
    simp only [microStep, hp, clearStep]
    cases sendStep e t <;> rfl

/-- In an idle Ready block in order everything is held and configured (R138, R314). -/
theorem InOrder.idle_ready {s : State} (h : InOrder s) (hp : s.pc = .idle) (hl : s.life = .ready) :
    HoldsAll s ∧ HardwareReady s := by
  obtain ⟨-, hheld, hhw, -⟩ := h
  obtain ⟨-, hall⟩ | ⟨hne, -⟩ := heldMatch_idle hp hheld
  · exact ⟨hall, (hardwareMatches_other fun _ _ _ he => by rw [hp] at he; cases he).mp hhw hl⟩
  · exact absurd hl hne

/-- A run that brings a command to SEND's end leaves the block Ready, with everything held and configured (R222). -/
theorem Sent.holds {as : List Agent} {s b u : State} (hs : Sent b u) (hl : b.life = .ready)
    (h : Drives as s (endCommand [] u)) (hord : InOrder s) (rest : List Agent) :
    HoldsAll { endCommand [] u with sched := rest } ∧ HardwareReady { endCommand [] u with sched := rest } := by
  have life : (endCommand [] u).life = .ready := by
    show u.life = .ready
    rw [hs.frame]
    exact hl
  obtain ⟨hholds, hready⟩ := (h.order hord).idle_ready rfl life
  exact ⟨hholds, HardwareReady.kept (s := endCommand [] u) (.of_hardware rfl) hready⟩

/-- A state from which SEND can run has CLEAR_ALL's first micro-step in order (R224). -/
theorem ReadyToSend.clear_inOrder {s : State} (h : ReadyToSend s) : InOrder (s.setPc (.clearAll .fill)) := by
  obtain ⟨hc, -, hholds, hready, hstopped, -⟩ := h
  refine ⟨hc, hholds, (hardwareMatches_other fun _ _ _ he => by cases he).mpr fun _ => ?_, ?_⟩
  · exact HardwareReady.kept (s := s) (.of_hardware rfl) hready
  · exact transferLoaded_of_stopped (fun e he => by cases he) hstopped

/-- Settles O45: the fill, and SEND's run under its schedule, of the black framebuffer's waveform. -/
theorem clearAllCompletes : Obligations.ClearAllCompletes := by
  intro s rest h hs
  obtain ⟨-, hp, ⟨hlife, -⟩, -, -, hf⟩ := id h
  have filled : Drives [.seq] (s.setPc (.clearAll .fill)) (s.blackened.setPc (.clearAll (.send .e1))) :=
    .goto (t := s.blackened.setPc (.clearAll .fill)) (l := .fill) clear_performs rfl rfl
  obtain ⟨u, hu, hsent⟩ := drives_send clear_performs_send (fun _ => rfl) (filled.order h.clear_inOrder) rfl hf
  have run := filled.trans hu
  obtain ⟨hholds, hready⟩ := hsent.holds hlife run h.clear_inOrder rest
  have hperform : exec .clearAll s = performFrom (.clearAll .fill) s := exec_perform hp (by rw [hlife]; rfl)
  obtain ⟨hfb, hfifo, hfault⟩ : u.fb = List.replicate s.ledCount 0 ∧ u.fifo = s.fifo ∧ u.fault = s.fault := by
    rw [hsent.frame]
    exact ⟨rfl, rfl, rfl⟩
  have hw : waveform (s.blackened.setPc (.clearAll (.send .e1))) = _ := waveform_blackened s
  have hstage := hsent.staged.trans hw
  have hout := hsent.emitted
  rw [hw] at hout
  exact ⟨_, hperform.trans (run.performFrom hs rfl), rfl, rfl, hfb, hstage, hout, hsent.stopped, hfifo.trans hf,
    hsent.idle, hfault, fun hnone => ⟨rfl, hfault.trans hnone⟩, hholds, hready, rfl⟩

/-! ## SEND, and SEND after CLEAR_ALL's fill, under every schedule -/

/-- CLEAR_ALL stands at its fill, where `F` holds, or at SEND's place, where `Q` holds (R224). -/
def ClearAt (F : State → Prop) (Q : SendStep → State → Prop) : ClearStep → State → Prop
  | .fill => F
  | .send e => Q e

theorem ClearAt.imp {F : State → Prop} {Q : SendStep → State → Prop} {c : ClearStep} {s t : State} (hf : F s → F t)
    (hq : ∀ e, Q e s → Q e t) (h : ClearAt F Q c s) : ClearAt F Q c t := by
  cases c with
  | fill => exact hf h
  | send e => exact hq e h

/-- A micro-step of CLEAR_ALL is the fill, or one of SEND's (R224). -/
theorem clearStep_meets {F : State → Prop} {Q : SendStep → State → Prop} {D : State → Prop}
    {R : Status → Detail → State → Prop} {c : ClearStep} {s : State} (hfill : F s → Q .e1 s.blackened)
    (hsend : ∀ e, Q e s → (sendStep e s).Meets Q D R) (h : ClearAt F Q c s) :
    (clearStep c s).Meets (ClearAt F Q) D R := by
  cases c with
  | fill => exact hfill h
  | send e => exact Proc.meets_call (hsend e h)

/-- `Q` holds at SEND's places, whichever command performs it, and `E` where it ends that command: what every agent and
every micro-step of SEND keep (R14, R221). -/
structure SendKeeps (Q : SendStep → State → Prop) (E : State → Prop) : Prop where
  place : ∀ e u pc, Q e u → Q e (u.setPc pc)
  agent : ∀ a e u v, a ≠ .seq → Q e u → agentStep a u = .next v → Q e v
  step : ∀ e u, Q e u →
    (sendStep e u).Meets Q (fun v => E (endCommand [] v)) (fun st d v => E (raiseError st d v))

section Keeps
variable {F E : State → Prop} {Q : SendStep → State → Prop} {s t : State}

/-- A SEND that is performed, under every schedule. -/
theorem SendKeeps.send (h : SendKeeps Q E) (hq : Q .e1 s) (hrun : performFrom (.send .e1) s = .next t) :
    ∃ u rest, t = { u with sched := rest } ∧ StandsAt .send Q E u := by
  obtain ⟨u, rest, ht, -, hu⟩ := send_performs.stands (I := fun _ => True) (fun _ _ _ _ _ _ _ => trivial) h.agent
    (fun e u _ _ hu => (h.step e u hu).mono (fun l v => h.place l v _) (fun _ hv => hv) fun _ _ _ hv => hv)
    trivial (h.place _ _ _ hq) hrun
  exact ⟨u, rest, ht, hu⟩

/-- A CLEAR_ALL that is performed, under every schedule. -/
theorem SendKeeps.clear (h : SendKeeps Q E) (hplace : ∀ u pc, F u → F (u.setPc pc))
    (hagent : ∀ a u v, a ≠ .seq → F u → agentStep a u = .next v → F v) (hfill : ∀ u, F u → Q .e1 u.blackened)
    (hf : F s) (hrun : performFrom (.clearAll .fill) s = .next t) :
    ∃ u rest, t = { u with sched := rest } ∧ StandsAt .clearAll (ClearAt F Q) E u := by
  have place (c : ClearStep) (u : State) (pc : Pc) : ClearAt F Q c u → ClearAt F Q c (u.setPc pc) :=
    ClearAt.imp (hplace u pc) fun e => h.place e u pc
  have agent (a : Agent) (c : ClearStep) (u v : State) (ha : a ≠ .seq) (hc : ClearAt F Q c u)
      (hv : agentStep a u = .next v) : ClearAt F Q c v :=
    hc.imp (fun hf => hagent a u v ha hf hv) fun e hq => h.agent a e u v ha hq hv
  obtain ⟨u, rest, ht, -, hu⟩ := clear_performs.stands (I := fun _ => True) (fun _ _ _ _ _ _ _ => trivial) agent
    (fun c u _ _ hu => (clearStep_meets (hfill u) (fun e => h.step e u) hu).mono (fun l v => place l v _)
      (fun _ hv => hv) fun _ _ _ hv => hv)
    trivial (place .fill _ _ hf) hrun
  exact ⟨u, rest, ht, hu⟩

end Keeps

/-! ## SEND and CLEAR_ALL end with the channel stopped -/

/-- Past the last W1 the channel is stopped (R181). -/
def LastWait (e : SendStep) (s : State) : Prop := e = .e4 .w2 → s.dma.phase = .stopped

/-- What OK promises at SEND's end (R222 (b)). -/
def EndsIdle (s : State) : Prop :=
  s.resp.status = .ok → s.dma.phase = .stopped ∧ s.fifo = [] ∧ s.dmaState = .idle

/-- What TRANSMIT raises is an error (R178, R180). -/
theorem transmitStep_raises (x : TransmitStep) (s : State) :
    (transmitStep x s).Meets (fun _ _ => True) (fun _ => True) (fun st _ _ => st ≠ .ok) := by
  cases x with
  | x1 | x2 => simp only [transmitStep]; split <;> simp
  | x3 i => simp only [transmitStep]; split <;> [trivial; exact Proc.meets_after fun _ _ => trivial]
  | x4 j =>
    simp only [transmitStep]
    split
    · trivial
    · split
      · trivial
      · exact Proc.meets_after fun _ _ => trivial
  | x5 | x7 => exact Proc.meets_after fun _ _ => trivial
  | x6 =>
    simp only [transmitStep]
    split
    · trivial
    · exact Proc.meets_after fun _ _ => trivial

/-- SEND ends when its last WAIT_IDLE has seen the channel stopped, and then the FIFO empty (R181, R222 (b)). -/
theorem sendStep_endsIdle {e : SendStep} {s : State} (h : LastWait e s) :
    (sendStep e s).Meets LastWait (fun t => t.dma.phase = .stopped ∧ t.fifo = [] ∧ t.dmaState = .idle)
      (fun st _ _ => st ≠ .ok) := by
  cases e with
  | e1 => rintro ⟨⟩
  | e2 w =>
    refine Proc.meets_call ((waitStep_meets w s).mono (fun _ _ _ => ?_) (fun _ _ => ?_) fun _ _ _ hf => hf.elim) <;>
      rintro ⟨⟩
  | e3 x =>
    refine Proc.meets_call ((transmitStep_raises x s).mono (fun _ _ _ => ?_) (fun _ _ => ?_) fun _ _ _ hne => hne) <;>
      rintro ⟨⟩
  | e4 w =>
    refine Proc.meets_call ((waitStep_meets w s).mono ?_ ?_ fun _ _ _ hf => hf.elim)
    · rintro l t (⟨rfl, rfl | rfl⟩ | ⟨-, rfl, hstop, rfl⟩)
      · exact h
      · exact h
      · exact fun _ => hstop
    · rintro t ⟨rfl, hfifo, rfl⟩
      exact ⟨h rfl, hfifo, rfl⟩

/-- No other agent starts a stopped channel (R184). -/
theorem LastWait.agent {a : Agent} {e : SendStep} {s t : State} (ha : a ≠ .seq) (h : LastWait e s)
    (ht : agentStep a s = .next t) : LastWait e t := by
  intro he
  by_cases hdma : a = .dma
  · subst hdma
    cases (dmaStep_stopped (h he)).symm.trans ht
    exact h he
  · obtain ⟨-, -, -, -, -, -, -, -, hkept, -⟩ := agentsOwnTheirState a s t ht
    rw [hkept hdma ha]
    exact h he

theorem lastWait_sendKeeps : SendKeeps LastWait EndsIdle where
  place _ _ _ h := h
  agent _ _ _ _ := LastWait.agent
  step _ _ h := (sendStep_endsIdle h).mono (fun _ _ ht => ht) (fun _ ht _ => ht) fun _ _ _ hne hok => absurd hok hne

/-- Settles O43: the command's run ends where SEND's ends, whatever the schedule. -/
theorem transferEndsIdle : Obligations.TransferEndsIdle := by
  rintro s t i (rfl | rfl) hl h hp hok
  all_goals
    obtain ⟨hidle, -⟩ := exec_next h
    rw [exec_perform hidle (by rw [hl]; rfl)] at h
  · obtain ⟨u, rest, rfl, hu⟩ := lastWait_sendKeeps.send (by rintro ⟨⟩) h
    exact hu.ended (by simp) hp hok
  · obtain ⟨u, rest, rfl, hu⟩ := lastWait_sendKeeps.clear (F := fun _ => True) (fun _ _ _ => trivial)
      (fun _ _ _ _ _ _ => trivial) (by rintro _ - ⟨⟩) trivial h
    exact hu.ended (by simp) hp hok

/-! ## What SEND leaves in the region and in the channel -/

/-- The control block and the frame lie in the region, and the channel was started with CFG's priority and no error flag
(R178). -/
def FrameWritten (s : State) : Prop :=
  s.dma.err = 0 ∧ s.dma.priority = s.cfg.dmaPriority
    ∧ ∃ r, s.region = some r ∧ SourceWritten s r s.stage.length ∧ BlockWritten s r 8

/-- X5 has cleared the error flags before X6, and TRANSMIT has written the frame before WAIT_IDLE (R178, R221). -/
def WrittenAt : SendStep → State → Prop
  | .e3 .x6, s => s.dma.err = 0
  | .e3 .x7, s => s.dma.err = 0
  | .e4 _, s => FrameWritten s
  | _, _ => True

theorem WrittenAt.setPc {e : SendStep} {s : State} (pc : Pc) (h : WrittenAt e s) : WrittenAt e (s.setPc pc) := by
  cases e with
  | e1 | e2 w | e4 w => exact h
  | e3 x => cases x <;> exact h

/-- A write of CS with ACTIVE = 1 writes to the channel alone (R41, R64). -/
theorem csWrite_frame {p : Nat} {s t : State} (h : csWrite p s = .ok t) :
    t = { s with dma := t.dma, fault := t.fault } := by
  obtain ⟨-, ⟨-, rfl⟩ | ⟨-, h⟩⟩ := csWrite_cases h
  · rfl
  · obtain ⟨-, rfl⟩ | ⟨-, rfl⟩ | ⟨_, -, -, rfl⟩ | ⟨_, -, -, rfl⟩ := dmaStart_cases h <;> rfl

/-- It sets the priority, and leaves the error flags alone (R41, R187). -/
theorem csWrite_flags {p : Nat} {s t : State} (h : csWrite p s = .ok t) (hr : regInBlock s.cfg .dmaCs = true) :
    t.dma.err = s.dma.err ∧ t.dma.priority = p := by
  obtain ⟨-, ⟨hout, -⟩ | ⟨-, h⟩⟩ := csWrite_cases h
  · rw [hr] at hout
    cases hout
  · obtain ⟨-, rfl⟩ | ⟨-, rfl⟩ | ⟨_, -, -, rfl⟩ | ⟨_, -, -, rfl⟩ := dmaStart_cases h <;> exact ⟨rfl, rfl⟩

theorem writtenAt_x3Label (i n : Nat) (s : State) : WrittenAt (.e3 (x3Label i n)) s := by
  unfold x3Label
  split <;> trivial

theorem writtenAt_x4Label (j : Nat) (s : State) : WrittenAt (.e3 (x4Label j)) s := by
  unfold x4Label
  split <;> trivial

theorem transmitStep_written {x : TransmitStep} {s : State} (hc : configOk s.cfg = true) {r : Region}
    (hr : s.region = some r) (hload : transmitProgress s r x) (h : WrittenAt (.e3 x) s) :
    (transmitStep x s).Meets (fun l t => WrittenAt (.e3 l) t) FrameWritten (fun _ _ _ => True) := by
  cases x with
  | x1 => simp only [transmitStep]; split <;> trivial
  | x2 =>
    simp only [transmitStep]
    split
    · trivial
    · exact writtenAt_x3Label 0 _ s
  | x3 i =>
    simp only [transmitStep]
    split
    · trivial
    · exact Proc.meets_after fun _ _ => writtenAt_x3Label _ _ _
  | x4 j =>
    simp only [transmitStep]
    split
    · trivial
    · split
      · trivial
      · exact Proc.meets_after fun _ _ => writtenAt_x4Label _ _
  | x5 =>
    refine Proc.meets_regWrite (regInBlock_fixed hc (by simp)) ?_
    show s.dma.err &&& ~~~BitVec.allOnes 32 = 0
    simp
  | x6 =>
    simp only [transmitStep]
    split
    · trivial
    · exact Proc.meets_regWrite (regInBlock_fixed hc (by simp)) h
  | x7 =>
    obtain ⟨hsource, hblock, -⟩ := hload
    refine Proc.meets_after fun t ht => ?_
    have hframe := csWrite_frame ht
    obtain ⟨herr, hprio⟩ := csWrite_flags ht (regInBlock_fixed hc (by simp))
    refine ⟨herr.trans h, hprio.trans ?_, r, ?_⟩
    · show s.cfg.dmaPriority = t.cfg.dmaPriority
      rw [hframe]
    · rw [hframe]
      exact ⟨hr, hsource, hblock⟩

/-- WAIT_IDLE writes nothing but `s.dmaState` (R181), and the model fault. -/
theorem waitStep_frame (w : WaitStep) (s : State) :
    (waitStep w s).Within (fun t => t = { s with dmaState := t.dmaState, fault := t.fault }) := by
  refine (waitStep_meets w s).mono ?_ ?_ fun _ _ _ hf => hf.elim
  · rintro l t (⟨-, rfl | rfl⟩ | ⟨-, -, -, rfl⟩) <;> rfl
  · rintro t ⟨-, -, rfl⟩
    rfl

theorem sendStep_written {e : SendStep} {s : State} (hord : InOrder s) (hp : sendPlace s.pc = some e)
    (h : WrittenAt e s) : (sendStep e s).Meets WrittenAt FrameWritten (fun st _ _ => st ≠ .ok) := by
  obtain ⟨⟨-, -, ⟨r, hr, -⟩, -⟩, -⟩ := hord.sending hp
  obtain ⟨hc, -, -, -, hload, -⟩ := hord
  cases e with
  | e1 => trivial
  | e2 w =>
    exact Proc.meets_call ((waitStep_meets w s).mono (fun _ _ _ => trivial) (fun _ _ => trivial)
      fun _ _ _ hf => hf.elim)
  | e3 x =>
    exact Proc.meets_call (((transmitStep_written hc hr (hload x r hp hr) h).and (transmitStep_raises x s)).mono
      (fun _ _ ⟨ht, _⟩ => ht) (fun _ ⟨ht, _⟩ => ht) fun _ _ _ ⟨_, hne⟩ => hne)
  | e4 w =>
    refine Proc.meets_call ((waitStep_meets w s).mono ?_ ?_ fun _ _ _ hf => hf.elim)
    · rintro l t (⟨-, rfl | rfl⟩ | ⟨-, -, -, rfl⟩) <;> exact h
    · rintro t ⟨-, -, rfl⟩
      exact h

/-- A step of the DMA leaves the error flags and the priority alone (R184). -/
theorem dmaStep_flags {s t : State} (h : dmaStep s = .next t) :
    (t.dma.err, t.dma.priority) = (s.dma.err, s.dma.priority) := by
  obtain rfl | ⟨w, -, -, -, -, -, rfl⟩ | ⟨-, rfl⟩ | ⟨-, -, rfl⟩ | ⟨-, -, rfl⟩ := dmaStep_cases h <;> rfl

theorem agentStep_flags {a : Agent} {s t : State} (ha : a ≠ .seq) (h : agentStep a s = .next t) :
    (t.dma.err, t.dma.priority) = (s.dma.err, s.dma.priority) := by
  by_cases hdma : a = .dma
  · subst hdma
    exact dmaStep_flags h
  · obtain ⟨-, -, -, -, -, -, -, -, hkept, -⟩ := agentsOwnTheirState a s t h
    rw [hkept hdma ha]

theorem WrittenAt.agent {a : Agent} {e : SendStep} {s t : State} (ha : a ≠ .seq) (h : WrittenAt e s)
    (ht : agentStep a s = .next t) : WrittenAt e t := by
  obtain ⟨herr, hprio⟩ := Prod.mk.inj (agentStep_flags ha ht)
  have hframe := agentStep_frame ha ht
  cases e with
  | e1 | e2 w => trivial
  | e3 x =>
    cases x with
    | x1 | x2 | x3 i | x4 j | x5 => trivial
    | x6 | x7 => exact herr.trans h
  | e4 w =>
    obtain ⟨herr', hprio', hwords⟩ := h
    refine ⟨herr.trans herr', hprio.trans (hprio'.trans ?_), ?_⟩
    · rw [hframe]
    · rw [hframe]
      exact hwords

/-- What an OK at SEND's end says of the region and the channel. -/
theorem send_written {s t : State} (h : ReadyToSend s) (ht : exec .send s = .next t) (hp : t.pc = .idle)
    (hok : t.resp.status = .ok) : FrameWritten t := by
  rw [h.exec_send] at ht
  obtain ⟨u, rest, rfl, -, hu⟩ := send_performs.stands (I := InOrder) (Q := WrittenAt)
    (E := fun u => u.resp.status = .ok → FrameWritten u)
    (fun _ _ _ _ _ => InOrder.agent) (fun _ _ _ _ => WrittenAt.agent)
    (fun e u hpc hord hq => (sendStep_written hord (by rw [hpc]; rfl) hq).mono (fun _ _ hv => hv.setPc _)
      (fun _ hv _ => hv) fun st _ _ hne hok => absurd hok hne)
    h.inOrder trivial ht
  exact hu.ended (by simp) hp hok

/-- Settles O38: SEND's run under its schedule, and what stands in the region where it ends. -/
theorem sendCompletes : Obligations.SendCompletes := by
  intro s rest h hs
  obtain ⟨-, hp, ⟨hlife, -⟩, -, -, hf⟩ := id h
  obtain ⟨u, run, hsent⟩ := drives_send send_performs (fun _ => rfl) h.inOrder rfl hf
  have hexec : exec .send s = .next { endCommand [] u with sched := rest } :=
    h.exec_send.trans (run.performFrom hs rfl)
  obtain ⟨hholds, hready⟩ := hsent.holds hlife run h.inOrder rest
  obtain ⟨hfb, hfifo, hfault, hregion, hcfg⟩ : u.fb = s.fb ∧ u.fifo = s.fifo ∧ u.fault = s.fault ∧ u.region = s.region
      ∧ u.cfg = s.cfg := by
    rw [hsent.frame]
    exact ⟨rfl, rfl, rfl, rfl, rfl⟩
  have written : FrameWritten { endCommand [] u with sched := rest } := send_written h hexec rfl rfl
  obtain ⟨herr, hprio, r, hr, hsource, hblock⟩ : FrameWritten u := written
  rw [SourceWritten, hsent.staged] at hsource
  rw [BlockWritten, hsent.staged, hcfg] at hblock
  refine ⟨_, hexec, rfl, rfl, hsent.emitted, hsent.staged, hfb, hsent.stopped, hfifo.trans hf, hsent.idle, ?_, hfault,
    fun hnone => ⟨rfl, hfault.trans hnone⟩, herr, hprio.trans (congrArg _ hcfg), hholds, hready, rfl⟩
  intro r' hr'
  obtain rfl : r = r' := Option.some.inj (hr.symm.trans (hregion.trans hr'))
  obtain ⟨source, hbus, hblock⟩ := hblock
  refine ⟨fun i e he => hsource i e (List.getElem?_eq_some_iff.mp he).1 he, source, hbus, fun j w hw => ?_⟩
  exact hblock j w (List.getElem?_eq_some_iff.mp hw).1 hw

/-! ## What SEND, CLEAR_ALL and CLEANUP leave alone -/

/-- What none of SEND, CLEAR_ALL and CLEANUP disturbs (R221, R224, R226): PLATFORM's answers while no request stands, a
running clock, and a termination request, once made. -/
structure Undisturbed (s t : State) : Prop where
  timing : t.timing = s.timing
  pin : t.pin = s.pin
  ch : t.ch = s.ch
  gpio : t.gpio = s.gpio
  pwm : t.pwm = s.pwm
  input : t.input = s.input
  quiet : s.exchange = .quiet → t.exchange = .quiet ∧ t.answers = s.answers
  clock : s.cm.enab = true → t.cm = s.cm ∧ t.clk = s.clk
  terminates : s.termPending = true → t.termPending = true

theorem Undisturbed.trans {s t u : State} (h : Undisturbed s t) (h' : Undisturbed t u) : Undisturbed s u where
  timing := h'.timing.trans h.timing
  pin := h'.pin.trans h.pin
  ch := h'.ch.trans h.ch
  gpio := h'.gpio.trans h.gpio
  pwm := h'.pwm.trans h.pwm
  input := h'.input.trans h.input
  quiet hq := by
    obtain ⟨hx, ha⟩ := h.quiet hq
    obtain ⟨hx', ha'⟩ := h'.quiet hx
    exact ⟨hx', ha'.trans ha⟩
  clock he := by
    obtain ⟨hcm, hclk⟩ := h.clock he
    obtain ⟨hcm', hclk'⟩ := h'.clock (by rw [hcm]; exact he)
    exact ⟨hcm'.trans hcm, hclk'.trans hclk⟩
  terminates ht := h'.terminates (h.terminates ht)

theorem Undisturbed.of_eq {s t : State} (hk : t.hardware = s.hardware)
    (hs : (t.exchange, t.answers, t.input, t.termPending) = (s.exchange, s.answers, s.input, s.termPending)) :
    Undisturbed s t := by
  simp only [State.hardware, Prod.mk.injEq] at hk hs
  obtain ⟨htiming, hpin, hch, hgpio, hcm, hclk, hpwm⟩ := hk
  obtain ⟨hx, ha, hin, hterm⟩ := hs
  exact ⟨htiming, hpin, hch, hgpio, hpwm, hin, fun hq => ⟨hx.trans hq, ha⟩, fun _ => ⟨hcm, hclk⟩, hterm.trans⟩

theorem Undisturbed.of_cleanupKept {s t : State} (h : t.cleanupKept = s.cleanupKept) : Undisturbed s t := by
  simp only [State.cleanupKept, State.surroundings, Prod.mk.injEq] at h
  obtain ⟨hk, -, hx, -, -, hterm, hin, ha, -⟩ := h
  exact .of_eq hk (by rw [hx, ha, hin, hterm])

/-- Of a command other than SETUP no agent's step disturbs these (R14, R29, R45, R170). -/
theorem agentStep_undisturbed {a : Agent} {s t : State} (hp : s.pc ≠ .idle) (hns : ∀ pin n st, s.pc ≠ .setup pin n st)
    (h : agentStep a s = .next t) : Undisturbed s t := by
  cases a with
  | seq => exact .of_cleanupKept (microStep_cleanupKept h hns)
  | dma => rw [dmaStep_frame h]; exact .of_eq rfl rfl
  | pwm => cases h; obtain ⟨-, he⟩ | ⟨-, rest, m, -, -, he⟩ := pwmStep_cases s <;> rw [he] <;> exact .of_eq rfl rfl
  | timer => cases h; exact .of_eq rfl rfl
  | clk =>
    cases h
    obtain ⟨-, he⟩ | ⟨henab, he⟩ := clkStep_cases s <;> rw [he]
    · exact .of_eq rfl rfl
    · exact ⟨rfl, rfl, rfl, rfl, rfl, rfl, fun hq => ⟨hq, rfl⟩, fun he => (by rw [henab] at he; cases he), id⟩
  | host =>
    cases h
    obtain ⟨acts, n, input, term, he, hterm, hin | ⟨hidle, -⟩⟩ := hostStep_cases s
    · rw [he]
      exact ⟨rfl, rfl, rfl, rfl, rfl, hin, fun hq => ⟨hq, rfl⟩, fun _ => ⟨rfl, rfl⟩, hterm⟩
    · exact absurd hidle hp
  | platform =>
    cases h
    obtain ⟨-, he⟩ | ⟨r, answer, as, n, hx, he⟩ := platformStep_cases s <;> rw [he]
    · exact .of_eq rfl rfl
    · exact ⟨rfl, rfl, rfl, rfl, rfl, rfl, fun hq => (by rw [hx] at hq; cases hq), fun _ => ⟨rfl, rfl⟩, id⟩

/-- Under every schedule a command other than SETUP leaves these undisturbed (R221, R224, R226). -/
theorem performFrom_undisturbed {pc : Pc} {s t : State} (hpc : ∀ pin n st, pc ≠ .setup pin n st)
    (h : performFrom pc s = .next t) : Undisturbed s t := by
  have kept (a : Agent) (u v : State) (hp : u.pc ≠ .idle)
      (hu : Undisturbed s u ∧ ∀ pin n st, u.pc ≠ .setup pin n st) (hv : agentStep a u = .next v) :
      Undisturbed s v ∧ ∀ pin n st, v.pc ≠ .setup pin n st := by
    obtain ⟨hu, hns⟩ := hu
    refine ⟨hu.trans (agentStep_undisturbed hp hns hv), ?_⟩
    by_cases ha : a = .seq
    · subst ha
      exact microStep_not_setup hv hns
    · have hpc : v.pc = u.pc := by rw [agentStep_frame ha hv]
      rw [hpc]
      exact hns
  obtain ⟨u, rest, rfl, hu, -⟩ := performFrom_reaches (pc := pc) kept ⟨.of_eq rfl rfl, hpc⟩ h
  exact hu.trans (.of_eq rfl rfl)

/-! ## The bytes SEND stores to -/

/-- Of the bytes of `s`, those outside the region's control block and first `n` SourceBuffer words read in `m` as they
do in `s` (R69, R99). -/
def MemSpared (s : State) (n : Nat) (m : List Host.Cell) : Prop :=
  ∀ a, (∀ r, s.region = some r → ∀ off, off < 32 + 4 * n → a ≠ cellOf r off) → memByte m a = memByte s.mem a

section Spares
variable {s u v : State} {n : Nat}

/-- What SEND's micro-steps keep once a frame of `n` elements is staged: its length, and the bytes outside the frame and
its control block (R178). -/
def FrameStaged (s : State) (n : Nat) (u : State) : Prop := u.stage.length = n ∧ MemSpared s n u.mem

/-- A store within the control block and the frame's words keeps these (R67). -/
theorem FrameStaged.memWrite {off : Nat} {w : Word} (h : FrameStaged s n u) (hr : u.region = s.region)
    (hoff : off + 4 ≤ 32 + 4 * n) (hv : memWrite off 4 w u = .ok v) : FrameStaged s n v := by
  obtain ⟨r, hur, -, ⟨-, rfl⟩ | ⟨-, -, -, rfl⟩ | ⟨-, -, -, rfl⟩⟩ := memWrite_cases hv
  · exact h
  · exact h
  · obtain ⟨hlen, hm⟩ := h
    refine ⟨hlen, fun a ha => Eq.trans (memByte_putWord_other r off w u.mem fun k hk => ?_) (hm a ha)⟩
    exact ha r (hr.symm.trans hur) (off + k) (by omega)

theorem transmitStep_staged (x : TransmitStep) (hr : u.region = s.region) (h : FrameStaged s n u) :
    (transmitStep x u).Within (FrameStaged s n) := by
  obtain ⟨hlen, -⟩ := id h
  cases x with
  | x1 | x2 => simp only [transmitStep]; split <;> exact h
  | x3 i =>
    simp only [transmitStep]
    split
    · exact h
    · next e he =>
      have hi := (List.getElem?_eq_some_iff.mp he).1
      exact Proc.meets_after fun v hv => h.memWrite hr (by rw [cbBytes]; omega) hv
  | x4 j =>
    simp only [transmitStep]
    split
    · trivial
    · split
      · exact h
      · next w hw =>
        have hj : j < 8 := (List.getElem?_eq_some_iff.mp hw).1
        exact Proc.meets_after fun v hv => h.memWrite hr (by omega) hv
  | x5 => exact Proc.within_regWrite h h
  | x6 =>
    simp only [transmitStep]
    split
    · trivial
    · exact Proc.within_regWrite h h
  | x7 =>
    refine Proc.meets_after fun v hv => ?_
    rw [csWrite_frame hv]
    exact h

/-- SEND stages the frame at E1 (R178, R221). -/
theorem sendStep_staged {e : SendStep} (hr : u.region = s.region) (hn : e = .e1 → (waveform u).length = n)
    (hlen : e ≠ .e1 → u.stage.length = n) (hm : MemSpared s n u.mem) : (sendStep e u).Within (FrameStaged s n) := by
  have waited {w : WaitStep} (h : FrameStaged s n u) : (waitStep w u).Within (FrameStaged s n) := by
    refine (waitStep_frame w u).mono fun v hv => ?_
    rw [hv]
    exact h
  cases e with
  | e1 => exact ⟨hn rfl, hm⟩
  | e2 w | e4 w => exact Proc.within_call (waited ⟨hlen (by simp), hm⟩) fun _ ht => ht
  | e3 x => exact Proc.within_call (transmitStep_staged x hr ⟨hlen (by simp), hm⟩) fun _ ht => ht

end Spares

/-- The lifecycle, what is held, and the reset gap: SEND leaves these alone (R221). -/
def State.held (s : State) := (s.life, s.ledCount, s.mapped, s.region, s.capacity, s.plat, s.resetGapLength)

/-- What a SEND of the framebuffer `fb` leaves alone of `s`: what is held, that framebuffer, and the bytes outside the
frame and its control block (R178, R221). -/
structure SendSpares (s : State) (fb : List Color) (u : State) : Prop where
  held : u.held = s.held
  colors : u.fb = fb
  mem : MemSpared s (capacityFor fb.length s.resetGapLength) u.mem

/-- The same at SEND's places, where the frame is staged from E1 on (R221). -/
def SendSparesAt (s : State) (fb : List Color) (e : SendStep) (u : State) : Prop :=
  SendSpares s fb u ∧ (e ≠ .e1 → u.stage.length = capacityFor fb.length s.resetGapLength)

section Spares
variable {s u v : State} {fb : List Color} {e : SendStep}

theorem SendSpares.congr (h : SendSpares s fb u) (hk : (v.held, v.fb, v.mem) = (u.held, u.fb, u.mem)) :
    SendSpares s fb v := by
  simp only [Prod.mk.injEq] at hk
  obtain ⟨hheld, hfb, hmem⟩ := hk
  obtain ⟨hh, hc, hm⟩ := h
  exact ⟨hheld.trans hh, hfb.trans hc, by rw [hmem]; exact hm⟩

theorem sendStep_spares (h : SendSparesAt s fb e u) : (sendStep e u).Within
    (fun v => SendSpares s fb v ∧ v.stage.length = capacityFor fb.length s.resetGapLength) := by
  obtain ⟨⟨hheld, hfb, hm⟩, hlen⟩ := h
  obtain ⟨hregion, hgap⟩ : u.region = s.region ∧ u.resetGapLength = s.resetGapLength := by
    simp only [State.held, Prod.mk.injEq] at hheld
    simp [hheld]
  have hn : e = .e1 → (waveform u).length = capacityFor fb.length s.resetGapLength := by
    rw [waveform_length, hfb, hgap]
    exact fun _ => rfl
  have spared (v : State) (hv : SameSetting u v ∧ FrameStaged s (capacityFor fb.length s.resetGapLength) v) :
      SendSpares s fb v ∧ v.stage.length = capacityFor fb.length s.resetGapLength := by
    obtain ⟨hsame, hlen, hm⟩ := hv
    refine ⟨⟨?_, ?_, hm⟩, hlen⟩
    · rw [hsame]
      exact hheld
    · rw [hsame]
      exact hfb
  exact (Proc.Meets.and (sendStep_same e u) (sendStep_staged hregion hn hlen hm)).mono
    (fun _ => spared) spared (fun _ _ => spared)

theorem sendSpares_keeps (s : State) (fb : List Color) : SendKeeps (SendSparesAt s fb) (SendSpares s fb) where
  place _ _ _ := fun ⟨hs, hlen⟩ => ⟨hs.congr rfl, hlen⟩
  agent a e u v ha h hv := by
    obtain ⟨hs, hlen⟩ := h
    rw [agentStep_frame ha hv]
    exact ⟨hs.congr rfl, hlen⟩
  step _ _ h := Proc.Meets.mono (sendStep_spares h) (fun _ _ ⟨hs, hlen⟩ => ⟨hs, fun _ => hlen⟩)
    (fun _ ⟨hs, _⟩ => hs.congr rfl) fun _ _ _ ⟨hs, _⟩ => hs.congr rfl

/-- The start of a SEND. -/
theorem SendSpares.begin (s : State) : SendSpares s s.fb s := ⟨rfl, rfl, fun _ _ => rfl⟩

/-- Before CLEAR_ALL's fill nothing of this is written (R224). -/
def Unfilled (s u : State) : Prop := u.held = s.held ∧ u.fb = s.fb ∧ u.mem = s.mem

theorem Unfilled.fill (h : Unfilled s u) : SendSparesAt s (List.replicate s.ledCount 0) .e1 u.blackened := by
  obtain ⟨hheld, -, hmem⟩ := h
  have hled : u.ledCount = s.ledCount := by
    simp only [State.held, Prod.mk.injEq] at hheld
    simp [hheld]
  refine ⟨⟨hheld, congrArg (List.replicate · 0) hled, fun a _ => ?_⟩, absurd rfl⟩
  rw [← hmem]
  rfl

theorem Unfilled.agent {a : Agent} (ha : a ≠ .seq) (h : Unfilled s u) (hv : agentStep a u = .next v) :
    Unfilled s v := by
  rw [agentStep_frame ha hv]
  exact h

end Spares

theorem performFrom_send_spares {s t : State} (h : performFrom (.send .e1) s = .next t) : SendSpares s s.fb t := by
  obtain ⟨u, rest, rfl, ⟨e, -, hu, -⟩ | ⟨-, hu⟩⟩ := (sendSpares_keeps s s.fb).send
    ⟨.begin s, absurd rfl⟩ h
  · exact hu.congr rfl
  · exact hu.congr rfl

/-- Under every schedule CLEAR_ALL has not yet filled the framebuffer, or sends the black one (R224). -/
theorem performFrom_clear_spares {s t : State} (h : performFrom (.clearAll .fill) s = .next t) :
    Unfilled s t ∨ SendSpares s (List.replicate s.ledCount 0) t := by
  obtain ⟨u, rest, rfl, ⟨c, -, hu⟩ | ⟨-, hu⟩⟩ := (sendSpares_keeps s (List.replicate s.ledCount 0)).clear
    (F := Unfilled s) (fun _ _ h => h) (fun _ _ _ => Unfilled.agent) (fun _ => Unfilled.fill) ⟨rfl, rfl, rfl⟩ h
  · cases c with
    | fill => exact .inl hu
    | send e =>
      obtain ⟨hs, -⟩ := hu
      exact .inr (hs.congr rfl)
  · exact .inr (hu.congr rfl)

/-- What SEND and CLEAR_ALL leave alone (R221, R224). -/
structure TransferSpares (i : Instr) (s t : State) : Prop where
  undisturbed : Undisturbed s t
  held : t.held = s.held
  sent : i = .send → t.fb = s.fb
  cleared : i = .clearAll → t.fb = s.fb ∨ t.fb = List.replicate s.ledCount 0
  mem : MemSpared s (capacityFor (if i = .send then s.fb.length else s.ledCount) s.resetGapLength) t.mem

theorem exec_transfer_spares {s t : State} {i : Instr} (hi : i = .send ∨ i = .clearAll) (h : exec i s = .next t) :
    TransferSpares i s t := by
  obtain ⟨-, hrun | ⟨st, d, rfl⟩⟩ := exec_next h
  · obtain rfl | rfl := hi
    · obtain ⟨hheld, hfb, hm⟩ := performFrom_send_spares hrun
      exact ⟨performFrom_undisturbed (by simp) hrun, hheld, fun _ => hfb, nofun, hm⟩
    · have undisturbed := performFrom_undisturbed (by simp) hrun
      obtain ⟨hheld, hfb, hmem⟩ | ⟨hheld, hfb, hm⟩ := performFrom_clear_spares hrun
      · exact ⟨undisturbed, hheld, nofun, fun _ => .inl hfb, fun a _ => by rw [hmem]⟩
      · rw [List.length_replicate] at hm
        exact ⟨undisturbed, hheld, nofun, fun _ => .inr hfb, hm⟩
  · exact ⟨.of_eq rfl rfl, rfl, fun _ => rfl, fun _ => .inl rfl, fun _ _ => rfl⟩

/-- Settles O44: the gate's answer writes only the response; SEND and CLEAR_ALL keep `SendSpares` at each of SEND's
places under every schedule. -/
theorem transferFrame : Obligations.TransferFrame := by
  intro s t i hi h
  obtain ⟨hu, hheld, hsent, hcleared, hmem⟩ := exec_transfer_spares hi h
  obtain ⟨htiming, hpin, hch, hgpio, hpwm, hinput, hquiet, hclock, hterm⟩ := hu
  simp only [State.timing, State.held, Prod.mk.injEq] at htiming hheld
  obtain ⟨hcfg, hdiv, hrange, hzero, hone, hgap⟩ := htiming
  obtain ⟨hlife, hled, hmapped, hregion, hcap, hplat, -⟩ := hheld
  exact ⟨hcfg, hlife, hpin, hch, hled, hdiv, hrange, hzero, hone, hgap, hmapped, hregion, hcap, hgpio, hpwm, hplat,
    hinput, hquiet, hclock, hterm, hsent, hcleared, hmem⟩

/-! ## CLEANUP's frame -/

/-- The bytes outside the black frame and its control block read as before, or the region is freed, and its bytes are
gone (R188 L4, log 7). -/
def SparedOrFreed (s u : State) : Prop :=
  (u.mem = [] ∧ u.plat.alloc = none) ∨ MemSpared s (capacityFor s.ledCount s.resetGapLength) u.mem

theorem SparedOrFreed.congr {s u v : State} (h : SparedOrFreed s u)
    (hk : (v.mem, v.plat.alloc) = (u.mem, u.plat.alloc)) : SparedOrFreed s v := by
  obtain ⟨hmem, halloc⟩ := Prod.mk.inj hk
  rw [SparedOrFreed, hmem, halloc]
  exact h

theorem SendSpares.sparedOrFreed {s u : State} (h : SendSpares s (List.replicate s.ledCount 0) u) :
    SparedOrFreed s u := by
  obtain ⟨-, -, hm⟩ := h
  rw [List.length_replicate] at hm
  exact .inr hm

/-- CLEANUP at each of its micro-steps (R226). -/
def CleanupSparesAt (s : State) : CleanupStep → State → Prop
  | .c1 c => ClearAt (Unfilled s) (SendSparesAt s (List.replicate s.ledCount 0)) c
  | _ => SparedOrFreed s

theorem releaseStep_spares {s u : State} (l : ReleaseStep) (h : SparedOrFreed s u) :
    (releaseStep l u).Within (SparedOrFreed s) := by
  unfold releaseStep
  split
  · cases l with
    | l1 w =>
      dsimp only
      split
      · refine Proc.within_call ((waitStep_frame w u).mono fun v hv => ?_) fun _ ht => ht
        rw [hv]
        exact h
      · exact h
    | l2 | l3 | l5 => exact h.congr rfl
    | l4 => exact .inl ⟨rfl, rfl⟩
  · exact h

theorem mapClose_spares {s u : State} (h : SparedOrFreed s u) : SparedOrFreed s (mapClose u) := by
  obtain ⟨-, he⟩ | ⟨-, he⟩ := mapClose_cases u <;> rw [he]
  · exact h
  · exact h.congr rfl

theorem cleanupStep_spares {s u : State} {c : CleanupStep} (h : CleanupSparesAt s c u) :
    (cleanupStep c u).Meets (CleanupSparesAt s) (SparedOrFreed s) (fun _ _ => SparedOrFreed s) := by
  cases c with
  | c1 c =>
    have sends (e : SendStep) (hu : SendSparesAt s (List.replicate s.ledCount 0) e u) : (sendStep e u).Meets
        (SendSparesAt s (List.replicate s.ledCount 0)) (SparedOrFreed s) (fun _ _ => SparedOrFreed s) :=
      Proc.Meets.mono (sendStep_spares hu) (fun _ _ ⟨hs, hlen⟩ => ⟨hs, fun _ => hlen⟩)
        (fun _ ⟨hs, _⟩ => hs.sparedOrFreed) fun _ _ _ ⟨hs, _⟩ => hs.sparedOrFreed
    exact Proc.meets_call (clearStep_meets Unfilled.fill sends h)
  | c2 l => exact Proc.meets_call (releaseStep_spares l h)
  | c3 => exact mapClose_spares h
  | c4 => exact h.congr rfl

theorem CleanupSparesAt.setPc {s u : State} {c : CleanupStep} (pc : Pc) (h : CleanupSparesAt s c u) :
    CleanupSparesAt s c (u.setPc pc) := by
  cases c with
  | c1 c => exact ClearAt.imp (fun hf : Unfilled s u => hf) (fun e => (sendSpares_keeps s _).place e u pc) h
  | c2 l | c3 | c4 => exact h

theorem CleanupSparesAt.agent {s u v : State} {a : Agent} {c : CleanupStep} (ha : a ≠ .seq) (h : CleanupSparesAt s c u)
    (hv : agentStep a u = .next v) : CleanupSparesAt s c v := by
  cases c with
  | c1 c =>
    exact ClearAt.imp (fun hf => Unfilled.agent ha hf hv) (fun e hq => (sendSpares_keeps s _).agent a e u v ha hq hv) h
  | c2 l | c3 | c4 =>
    rw [agentStep_frame ha hv]
    exact h

theorem CleanupSparesAt.sparedOrFreed {s u : State} {c : CleanupStep} (h : CleanupSparesAt s c u) :
    SparedOrFreed s u := by
  cases c with
  | c1 c =>
    cases c with
    | fill =>
      obtain ⟨-, -, hmem⟩ := h
      exact .inr fun a _ => by rw [hmem]
    | send e =>
      obtain ⟨hs, -⟩ := h
      exact hs.sparedOrFreed
  | c2 l | c3 | c4 => exact h

/-- Under every schedule CLEANUP stores to the black frame and its control block alone, until the region is freed
(R226). -/
theorem performFrom_cleanup_spares {s t : State} (h : performFrom (.cleanup (.c1 .fill)) s = .next t) :
    SparedOrFreed s t := by
  obtain ⟨u, rest, rfl, -, ⟨c, -, hu⟩ | ⟨-, hu⟩⟩ := cleanup_performs.stands (l := .c1 .fill) (I := fun _ => True)
    (Q := CleanupSparesAt s) (E := SparedOrFreed s) (fun _ _ _ _ _ _ _ => trivial)
    (fun _ _ _ _ => CleanupSparesAt.agent)
    (fun c u _ _ hc => (cleanupStep_spares hc).mono (fun _ _ hv => hv.setPc _) (fun _ hv => hv.congr rfl)
      fun _ _ _ hv => hv.congr rfl)
    trivial ⟨rfl, rfl, rfl⟩ h
  · exact hu.sparedOrFreed.congr rfl
  · exact hu.congr rfl

/-- Settles O47: the gate's answer writes only the response; CLEANUP keeps `CleanupSparesAt` at each of its micro-steps
under every schedule. -/
theorem cleanupFrame : Obligations.CleanupFrame := by
  intro s t h
  obtain ⟨⟨htiming, hpin, hch, hgpio, hpwm, hinput, hquiet, hclock, hterm⟩, hmem⟩ :
      Undisturbed s t ∧ SparedOrFreed s t := by
    obtain ⟨-, hrun | ⟨st, d, rfl⟩⟩ := exec_next h
    · exact ⟨performFrom_undisturbed (by simp) hrun, performFrom_cleanup_spares hrun⟩
    · exact ⟨.of_eq rfl rfl, .inr fun _ _ => rfl⟩
  simp only [State.timing, Prod.mk.injEq] at htiming
  obtain ⟨hcfg, hdiv, hrange, hzero, hone, hgap⟩ := htiming
  exact ⟨hcfg, hpin, hch, hdiv, hrange, hzero, hone, hgap, hgpio, hpwm, hinput, hquiet, hclock, hterm, hmem⟩

end Sys2Proof.Machine

namespace Sys2Proof.Machine

/-! ## The colour model -/

/-- What holds of the brightness and of R251's `p`, `q` and `t` holds of each channel: every sector's channels are
among these four. -/
theorem hsbToRgb_forall {P : Int → Prop} {h s v : Int} (hv : P v) (hp : P (hsbP s v)) (hq : P (hsbQ (h % 60) s v))
    (ht : P (hsbT (h % 60) s v)) : P (hsbToRgb h s v).1 ∧ P (hsbToRgb h s v).2.1 ∧ P (hsbToRgb h s v).2.2 := by
  simp only [hsbToRgb]
  split_ifs
  · exact ⟨hv, ht, hp⟩
  · exact ⟨hq, hv, hp⟩
  · exact ⟨hp, hv, ht⟩
  · exact ⟨hp, hq, hv⟩
  · exact ⟨ht, hp, hv⟩
  · exact ⟨hv, hp, hq⟩

/-- In every sector one channel is the brightness (R251). -/
theorem hsbToRgb_brightness (h s v : Int) :
    (hsbToRgb h s v).1 = v ∨ (hsbToRgb h s v).2.1 = v ∨ (hsbToRgb h s v).2.2 = v := by
  simp only [hsbToRgb]
  split_ifs
  · exact .inl rfl
  · exact .inr (.inl rfl)
  · exact .inr (.inl rfl)
  · exact .inr (.inr rfl)
  · exact .inr (.inr rfl)
  · exact .inl rfl

/-- R254 (b): fully saturated at a sector's start, `p` and `t` have no share of the brightness and `q` the whole. -/
theorem hsbToRgb_sector_start {h : Int} (v : Int) (hh : h % 60 = 0) :
    let c := hsbToRgb h 255 v
    (c.1 = 0 ∨ c.1 = v) ∧ (c.2.1 = 0 ∨ c.2.1 = v) ∧ (c.2.2 = 0 ∨ c.2.2 = v) := by
  refine hsbToRgb_forall (P := fun x => x = 0 ∨ x = v) (.inr rfl) (.inl ?p) (.inr ?q) (.inl ?t)
  case p => simp [hsbP]
  case q => simp [hsbQ, hh]
  case t => simp [hsbT, hh]

/-- R253: with no saturation `p`, `q` and `t` are all the brightness. -/
theorem hsbToRgb_achromatic (h v : Int) : hsbToRgb h 0 v = (v, v, v) := by
  have ⟨hr, hg, hb⟩ := hsbToRgb_forall (P := fun x => x = v) (h := h) (s := 0) rfl
    (by simp [hsbP]) (by simp [hsbQ]) (by simp [hsbT])
  exact Prod.ext hr (Prod.ext hg hb)

/-- Settles O16: the channels' bounds are `hsbToRgb_bounds`; they and `hsbToRgb_brightness` give the largest, and black
where `v = 0`. -/
theorem colorModelBounds : Obligations.ColorModelBounds := by
  intro h s v _ _ hs hs' hv _ c
  obtain ⟨hr, hg, hb⟩ : (0 ≤ c.1 ∧ c.1 ≤ v) ∧ (0 ≤ c.2.1 ∧ c.2.1 ≤ v) ∧ (0 ≤ c.2.2 ∧ c.2.2 ≤ v) :=
    hsbToRgb_bounds hs hs' hv
  refine ⟨hr, hg, hb, ?largest, ?start, ?black⟩
  case largest =>
    have hbright : c.1 = v ∨ c.2.1 = v ∨ c.2.2 = v := hsbToRgb_brightness h s v
    omega
  case start =>
    rintro rfl hh
    exact hsbToRgb_sector_start v hh
  case black =>
    intro hzero
    exact Prod.ext (show c.1 = 0 by omega) (Prod.ext (show c.2.1 = 0 by omega) (show c.2.2 = 0 by omega))

/-- Settles O15: the three primaries by evaluation, zero saturation by `hsbToRgb_achromatic`. -/
theorem colorModelExamples : Obligations.ColorModelExamples :=
  ⟨by decide, by decide, by decide, fun h v _ _ _ _ => hsbToRgb_achromatic h v⟩

/-- Settles O31: the gate's two outcomes by `lifecycleGate`; an idle sequencer's `endCommand` only answers. -/
theorem hsbToRgbAnswersColor : Obligations.HsbToRgbAnswersColor := by
  intro s h sat v hp
  obtain ⟨hgate, -⟩ := lifecycleGate
  obtain ⟨hhalted, -, -, hperform⟩ := hgate s hp
  refine ⟨rfl, rfl, fun hl => ?_, fun hl => hhalted hl _, by decide, by decide⟩
  rw [hperform hl, endCommand_idle hp]
  rfl

end Sys2Proof.Machine

/-! Settles the exceptions' statements (60_exceptions.md). SUPPORT first: what the idle sequencer's next step finds; what a
step in Halted may write; and the cleanup of a termination request under CLEANUP's named schedule. -/

namespace Sys2Proof.Machine

/-! ## What the idle sequencer finds -/

/-- With SEQ next and nothing found that is a command, the step is what the idle sequencer makes of it (R210, log 2). -/
theorem step_of_fetch_done {s u : State} {as : List Agent} (hc : configOk s.cfg = true) (hp : s.pc = .idle)
    (hs : s.sched = .seq :: as) (hf : fetch { s with sched := as } = .done u) : step s = .next u := by
  have hdraw : nextAgent s = (.seq, { s with sched := as }) := by simp only [nextAgent, hs]
  have hidle : { s with sched := as }.pc = .idle := hp
  rw [step, if_pos hc, hdraw]
  show seqStep _ = _
  rw [seqStep, if_pos hidle, hf]

theorem fetch_of_due {s : State} (hd : terminationDue s = true) : fetch s = .done (serveTermination s) :=
  if_pos hd

theorem fetch_of_reserved {s : State} {op : Byte} {rest : List Byte} (hd : terminationDue s = false)
    (hdecode : decode s.input = .reserved op rest) : fetch s = .done (illegalCommand { s with input := rest }) := by
  simp only [fetch, hd, hdecode, Bool.false_eq_true, if_false]

/-- A termination request is due wherever the block is not Halted yet (R284, R286). -/
theorem terminationDue_of_pending {s : State} (ht : s.termPending = true) (hl : s.life ≠ .halted) :
    terminationDue s = true := by
  simp [terminationDue, ht, hl]

theorem terminationDue_halted {s : State} (hl : s.life = .halted) : terminationDue s = false := by
  simp [terminationDue, hl]

theorem serveTermination_ready {s : State} (hl : s.life = .ready) :
    serveTermination s = s.setPc (.terminate (.c1 .fill)) := by
  rw [serveTermination, hl]

theorem serveTermination_unconfigured {s : State} (hl : s.life = .unconfigured) :
    serveTermination s = { s with life := .halted } := by
  rw [serveTermination, hl]

/-- A reserved opcode only answers: HALTED in Halted, and elsewhere ILLEGAL_COMMAND (R280, R281). -/
theorem illegalCommand_eq (s : State) : illegalCommand s = { s with
    resp := if s.life = .halted then { status := .halted, detail := .terminated, payload := [] }
      else { status := .illegalCommand, detail := .unknownOpcode, payload := [] } } := by
  unfold illegalCommand
  split
  · next hl => rw [if_pos hl]; rfl
  · next hl => rw [if_neg hl]; rfl

/-- Settles O22: the decoder reads a reserved opcode, and `illegalCommand_eq` says what it is answered. -/
theorem reservedOpcodeAnswered : Obligations.ReservedOpcodeAnswered := by
  intro s op rest as hc hp hs hd hin hop
  obtain ⟨hreserved, -⟩ := reservedAndShortStrings
  have hdecode : decode s.input = .reserved op rest := by rw [hin]; exact (hreserved op rest).mpr hop
  refine ⟨rfl, ?_⟩
  rw [step_of_fetch_done hc hp hs (fetch_of_reserved (s := { s with sched := as }) hd hdecode), illegalCommand_eq]

/-- Settles O23: the request is due in both lifecycle states, and the idle sequencer looks at it first. -/
theorem terminationServedFirst : Obligations.TerminationServedFirst := by
  intro s as hc hp hs ht
  have served (hl : s.life ≠ .halted) : step s = .next (serveTermination { s with sched := as }) :=
    step_of_fetch_done hc hp hs (fetch_of_due (terminationDue_of_pending ht hl))
  exact ⟨fun hl => (served (by simp [hl])).trans (congrArg _ (serveTermination_ready hl)),
    fun hl => (served (by simp [hl])).trans (congrArg _ (serveTermination_unconfigured hl))⟩

/-! ## Halted is terminal -/

/-- What a step in Halted makes of `s` (R285): of the block's own record only the response and HOST's flag are written,
the response can only become HALTED's, and with the channel stopped no model fault is recorded. -/
structure StaysHalted (s t : State) : Prop where
  resp : t.resp = s.resp ∨ t.resp = { status := .halted, detail := .terminated, payload := [] }
  fault : s.dma.phase = .stopped → t.fault = s.fault
  frame : t = { s with
    resp := t.resp, termPending := t.termPending, fault := t.fault, cm := t.cm, clo := t.clo, dma := t.dma,
    fifo := t.fifo, clk := t.clk, out := t.out, exchange := t.exchange, input := t.input, sched := t.sched,
    answers := t.answers, hostActs := t.hostActs, draws := t.draws }

/-- In Halted the sequencer only answers, and what it answers is HALTED (R211, R280, R285). -/
theorem seqStep_halted {s t : State} (hl : s.life = .halted) (hp : s.pc = .idle) (h : seqStep s = .next t) :
    StaysHalted s t := by
  obtain ⟨hgate, -⟩ := lifecycleGate
  rw [seqStep, if_pos hp] at h
  obtain ⟨hd, -⟩ | ⟨-, ⟨-, hf⟩ | ⟨op, -, hf⟩ | ⟨op, rest, -, hf⟩ | ⟨i, rest, -, hf⟩⟩ := fetch_cases s
  · rw [terminationDue_halted hl] at hd
    cases hd
  · rw [hf] at h
    cases h
    exact ⟨.inl rfl, fun _ => rfl, rfl⟩
  · rw [hf] at h
    cases h
  · rw [hf, illegalCommand_eq] at h
    cases h
    exact ⟨.inr (if_pos hl), fun _ => rfl, rfl⟩
  · obtain ⟨hhalted, -⟩ := hgate { s with input := rest } hp
    rw [hf] at h
    cases (hhalted hl i).symm.trans h
    exact ⟨.inr rfl, fun _ => rfl, rfl⟩

/-- The agents go on in Halted, and none but the sequencer touches the block's own record (R14, R285). -/
theorem agentStep_halted {a : Agent} {s t : State} (ha : a ≠ .seq) (h : agentStep a s = .next t) : StaysHalted s t := by
  have hframe := agentStep_frame ha h
  refine ⟨.inl (by rw [hframe]), fun hstop => ?_, by rw [hframe]⟩
  by_cases ha' : a = .dma
  · subst ha'
    cases (dmaStep_stopped hstop).symm.trans h
    rfl
  · obtain ⟨u, hu, haround⟩ := agentStep_around s ha ha'
    cases hu.symm.trans h
    rw [haround]

theorem step_halted {s t : State} (hl : s.life = .halted) (hp : s.pc = .idle) (h : step s = .next t) :
    StaysHalted s t := by
  obtain ⟨sched, draws, hdrawn⟩ := nextAgent_state s
  have moved : StaysHalted (nextAgent s).2 t := by
    obtain ⟨-, ⟨-, hseq⟩ | ⟨ha, hagent⟩⟩ := step_next h
    · have hlife : (nextAgent s).2.life = .halted := by rw [hdrawn]; exact hl
      have hidle : (nextAgent s).2.pc = .idle := by rw [hdrawn]; exact hp
      exact seqStep_halted hlife hidle hseq
    · exact agentStep_halted ha hagent
  rw [hdrawn] at moved
  exact ⟨moved.resp, moved.fault, moved.frame⟩

/-- Settles O25: a step of the sequencer by `seqStep_halted`, any other agent's by `agentStep_halted`. -/
theorem haltedIsTerminal : Obligations.HaltedIsTerminal := by
  intro s t hl hp h
  obtain ⟨hresp, hfault, hframe⟩ := step_halted hl hp h
  have hterm := (step_extends h).term
  rw [hframe]
  exact ⟨hl, hp, hresp, rfl, rfl, rfl, rfl, rfl, rfl, rfl, rfl, rfl, rfl, rfl, rfl, rfl, rfl, hfault, hterm,
    rfl, rfl, rfl, rfl⟩

/-! ## The response while CLEANUP's steps run -/

/-- Whatever the outcome of the micro-step, the procedure itself has not written the response (R28, R279). -/
abbrev Proc.KeepsResp {α : Type} (p : Proc α) (s : State) : Prop := p.Within fun t => t.resp = s.resp

theorem waitStep_resp (w : WaitStep) (s : State) : (waitStep w s).KeepsResp s := by
  refine (waitStep_meets w s).mono ?_ ?_ fun _ _ _ h => h.elim
  · rintro l t (⟨-, rfl | rfl⟩ | ⟨-, -, -, rfl⟩) <;> rfl
  · rintro t ⟨-, -, rfl⟩
    rfl

theorem memWrite_resp {off n : Nat} {v : Word} {s t : State} (h : memWrite off n v s = .ok t) : t.resp = s.resp := by
  obtain ⟨r, -, -, ⟨-, rfl⟩ | ⟨-, -, -, rfl⟩ | ⟨-, -, -, rfl⟩⟩ := memWrite_cases h <;> rfl

theorem csWrite_resp {p : Nat} {s t : State} (h : csWrite p s = .ok t) : t.resp = s.resp := by
  obtain ⟨-, ⟨-, rfl⟩ | ⟨-, h⟩⟩ := csWrite_cases h
  · rfl
  · obtain ⟨-, rfl⟩ | ⟨-, rfl⟩ | ⟨_, -, -, rfl⟩ | ⟨_, -, -, rfl⟩ := dmaStart_cases h <;> rfl

theorem transmitStep_resp (x : TransmitStep) (s : State) : (transmitStep x s).KeepsResp s := by
  unfold transmitStep
  cases x with
  | x1 | x2 => dsimp only; split <;> rfl
  | x3 i =>
    dsimp only
    split
    · rfl
    · exact Proc.meets_after fun t h => memWrite_resp h
  | x4 j =>
    dsimp only
    split
    · trivial
    · split
      · rfl
      · exact Proc.meets_after fun t h => memWrite_resp h
  | x5 => exact Proc.within_regWrite rfl rfl
  | x6 =>
    dsimp only
    split
    · trivial
    · exact Proc.within_regWrite rfl rfl
  | x7 =>
    refine Proc.meets_after fun t h => ?_
    have kept : t.resp = s.resp := csWrite_resp h
    exact kept

theorem sendStep_resp (e : SendStep) (s : State) : (sendStep e s).KeepsResp s := by
  cases e with
  | e1 => rfl
  | e2 w | e4 w => exact Proc.within_call (waitStep_resp w s) fun _ h => h
  | e3 x => exact Proc.within_call (transmitStep_resp x s) fun _ h => h

theorem releaseStep_resp (l : ReleaseStep) (s : State) : (releaseStep l s).KeepsResp s := by
  unfold releaseStep
  split
  · cases l with
    | l1 w =>
      dsimp only
      split
      · exact Proc.within_call (waitStep_resp w s) fun _ h => h
      · rfl
    | l2 | l3 | l4 | l5 => rfl
  · rfl

theorem cleanupStep_resp (c : CleanupStep) (s : State) : (cleanupStep c s).KeepsResp s := by
  cases c with
  | c1 a =>
    cases a with
    | fill => rfl
    | send e => exact Proc.within_call (Proc.within_call (sendStep_resp e s) fun _ h => h) fun _ h => h
  | c2 l => exact Proc.within_call (releaseStep_resp l s) fun _ h => h
  | c3 =>
    show (mapClose s).resp = s.resp
    obtain ⟨-, h⟩ | ⟨-, h⟩ := mapClose_cases s <;> rw [h]
  | c4 => rfl

/-! ## Serving a termination request under CLEANUP's named schedule -/

/-- RELEASE has nothing to raise (R188). -/
theorem releaseStep_raises_nothing (l : ReleaseStep) (s : State) :
    (releaseStep l s).Meets (fun _ _ => True) (fun _ => True) (fun _ _ _ => False) := by
  unfold releaseStep
  split
  · cases l with
    | l1 w =>
      dsimp only
      split
      · exact Proc.meets_call ((waitStep_meets w s).mono (fun _ _ _ => trivial) (fun _ _ => trivial) fun _ _ _ h => h.elim)
      · trivial
    | l2 | l3 | l4 | l5 => trivial
  · trivial

/-- From a state in order the cleanup of a termination request raises nothing (R284, R290). -/
theorem InOrder.cleanup_raises_nothing {s : State} {c : CleanupStep} (h : InOrder s) (hp : s.pc = .terminate c) :
    (cleanupStep c s).Meets (fun _ _ => True) (fun _ => True) (fun _ _ _ => False) := by
  cases c with
  | c1 a =>
    cases a with
    | fill => trivial
    | send e =>
      have hplace : sendPlace s.pc = some e := by rw [hp]; rfl
      obtain ⟨hholds, htiming⟩ := h.sending hplace
      obtain ⟨hc, -, -, hloaded⟩ := h
      have runs := sendStep_runs e hc hholds htiming ((transferLoaded_sending hplace).mp hloaded)
      exact Proc.meets_call (Proc.meets_call (runs.meets.mono (fun _ _ _ => trivial) (fun _ _ => trivial) fun _ _ _ h => h))
  | c2 l => exact Proc.meets_call (releaseStep_raises_nothing l s)
  | c3 | c4 => trivial

theorem terminate_performs : Performs cleanupStep .terminate endTermination where
  busy c := by simp
  microStep c t hp := by simp only [microStep, hp]

/-- A termination request's cleanup is in progress in `s`, or has ended there, and the response is still `resp`. -/
structure Terminating (resp : Response) (s : State) : Prop where
  order : InOrder s
  place : s.pc = .idle ∨ ∃ c, s.pc = .terminate c
  same : s.resp = resp

/-- No agent's step writes the response while a termination request is served: the host is told nothing (R284, R285). -/
theorem Terminating.agent {resp : Response} (a : Agent) (s t : State) (h : Terminating resp s)
    (ht : agentStep a s = .next t) : Terminating resp t := by
  obtain ⟨hord, hplace, hresp⟩ := h
  by_cases ha : a = .seq
  · subst ha
    obtain hp | ⟨c, hp⟩ := hplace
    · have hstays : microStep s = .next s := by simp only [microStep, hp]
      cases hstays.symm.trans ht
      exact ⟨hord, .inl hp, hresp⟩
    · obtain ⟨hplace', hresp'⟩ := resolve_meets
        (P := fun u => (u.pc = .idle ∨ ∃ c, u.pc = .terminate c) ∧ u.resp = s.resp)
        ((terminate_performs.microStep c s hp).symm.trans ht)
        (((cleanupStep_resp c s).and (hord.cleanup_raises_nothing hp)).mono (fun l _ ⟨hu, _⟩ => ⟨.inr ⟨l, rfl⟩, hu⟩)
          (fun _ ⟨hu, _⟩ => ⟨.inl rfl, hu⟩) fun _ _ _ ⟨_, hno⟩ => hno.elim)
      exact ⟨hord.agent ht, hplace', hresp'.trans hresp⟩
  · have hframe := agentStep_frame ha ht
    exact ⟨hord.agent ht, by rw [hframe]; exact hplace, by rw [hframe]; exact hresp⟩

/-- A command that performs CLEANUP's steps performs SEND, and RELEASE follows it (R226, R284). -/
theorem Performs.send_of_cleanup {wrap : CleanupStep → Pc} {finish : State → State}
    (h : Performs cleanupStep wrap finish) :
    Performs sendStep (fun e => wrap (.c1 (.send e))) (State.setPc (wrap (.c2 (.l1 .w1)))) where
  busy e := h.busy _
  microStep e t hp := by
    rw [h.microStep _ t hp, cleanupStep, clearStep]
    cases sendStep e t <;> rfl

/-- A state from which SEND can run has in order the first micro-step of any procedure that then holds what it needs and
begins outside SEND, or at E1 (R222, R314). -/
theorem ReadyToSend.inOrder_setPc {s : State} {pc : Pc} (h : ReadyToSend s) (hheld : HeldMatch (s.setPc pc))
    (hsetup : ∀ pin n st, pc ≠ .setup pin n st) (hsend : ∀ e, sendPlace pc = some e → e = .e1) :
    InOrder (s.setPc pc) := by
  obtain ⟨hc, -, -, hready, hstopped, -⟩ := h
  exact ⟨hc, hheld, (hardwareMatches_other hsetup).mpr fun _ => HardwareReady.kept (s := s) (.of_hardware rfl) hready,
    transferLoaded_of_stopped hsend hstopped⟩

/-- CLEANUP's steps under their named schedule, in whichever command performs them: the black frame, everything given
back, and then the command's own end (R226, R284). -/
theorem ReadyToSend.drives_givenBack {s : State} {wrap : CleanupStep → Pc} {finish : State → State} (h : ReadyToSend s)
    (hcleanup : Performs cleanupStep wrap finish) (hwrap : ∀ e, sendPlace (wrap (.c1 (.send e))) = some e)
    (hord : InOrder (s.setPc (wrap (.c1 .fill)))) :
    ∃ u, Sent (s.blackened.setPc (wrap (.c1 (.send .e1)))) u
      ∧ Drives (cleanupSchedule s.capacity) (s.setPc (wrap (.c1 .fill))) (finish (u.setPc (wrap .c4)).givenBack) := by
  obtain ⟨hc, -, ⟨-, hm, ⟨r, hr, -⟩, -⟩, -, -, hf⟩ := h
  have filled := Drives.goto hcleanup rfl (cleanupStep_fill (s.setPc (wrap (.c1 .fill))))
  obtain ⟨u, hu, hsent⟩ := drives_send hcleanup.send_of_cleanup hwrap (filled.order hord) rfl hf
  obtain ⟨hcfg, hmapped, hregion, hfifo⟩ : u.cfg = s.cfg ∧ u.mapped = s.mapped ∧ u.region = s.region ∧ u.fifo = s.fifo := by
    rw [hsent.frame]
    exact ⟨rfl, rfl, rfl, rfl⟩
  have given := Machine.drives_givenBack (s := u.setPc (wrap (.c2 (.l1 .w1)))) hcleanup rfl (by simpa [hcfg] using hc)
    (hmapped.trans hm) (by simp [hregion, hr]) hsent.stopped (hfifo.trans hf)
  exact ⟨u, hsent, (filled.trans hu).trans given⟩

/-- Settles O24: the run is `ReadyToSend.drives_givenBack`'s, and along it the agents keep the response (`Terminating`). -/
theorem terminationCleansUp : Obligations.TerminationCleansUp := by
  intro s h
  obtain ⟨-, -, hholds, -, -, hf⟩ := id h
  have hord : InOrder (s.setPc (.terminate (.c1 .fill))) := h.inOrder_setPc hholds (by simp) (by simp [sendPlace])
  obtain ⟨u, hsent, hdrives⟩ := h.drives_givenBack terminate_performs (fun _ => rfl) hord
  have ended : Terminating s.resp (endTermination (u.setPc (.terminate .c4)).givenBack) :=
    hdrives.keeps Terminating.agent ⟨hord, .inr ⟨_, rfl⟩, rfl⟩
  have hrun := hdrives.drive []
  rw [List.append_nil] at hrun
  obtain ⟨hfifo, hfault, hterm⟩ : u.fifo = s.fifo ∧ u.fault = s.fault ∧ u.termPending = s.termPending := by
    rw [hsent.frame]
    exact ⟨rfl, rfl, rfl⟩
  have hout := hsent.emitted
  rw [waveform_setPc, waveform_blackened] at hout
  exact ⟨_, hrun, rfl, rfl, ⟨rfl, rfl, rfl, rfl, rfl⟩, rfl, ended.same, hterm, hsent.stopped, hfifo.trans hf, hfault,
    fun hnone => ⟨rfl, hfault.trans hnone⟩, hout⟩

end Sys2Proof.Machine

/-! Settles the statements of reset and of the hazards (70_reset_and_hazards.md): power-on, and what ends in fair runs.
SUPPORT first: what a fair run leads to, the agent that helps a transfer on, and the clock that K4 and K7 poll. -/

namespace Sys2Proof.Machine

/-! ## Power-on -/

/-- R10 accepts the example configuration (log 4). -/
theorem configOk_ex1 : configOk Config.ex1 = true := by decide

/-- At power-on everything is in order: nothing is held, nothing is configured, and no transfer is loaded (R310). -/
theorem inOrder_reset : InOrder State.reset :=
  ⟨configOk_ex1, ⟨⟨rfl, rfl, rfl, rfl, rfl⟩, rfl⟩, (hardwareMatches_other (by simp [State.reset])).mpr nofun,
    transferLoaded_of_stopped nofun rfl⟩

/-- Settles O53: the values by `State.reset`, soundness by `inOrder_reset`, and the other invariants because nothing is
held, the FIFO is empty, DMAC asks for nothing and the channel is stopped. -/
theorem powerOnValuesAndInvariants : Obligations.PowerOnValuesAndInvariants := by
  obtain ⟨hc, hheld, hhardware, -⟩ := inOrder_reset
  exact ⟨⟨rfl, rfl, rfl, rfl, rfl, rfl, rfl, rfl, rfl, rfl, rfl, rfl, rfl, rfl, rfl⟩, reset_mem_wf,
    ⟨inOrder_reset, fun _ => rfl, rfl⟩, ⟨hheld, fun _ => rfl⟩, hhardware, ⟨nofun, fun _ => rfl⟩, ⟨Nat.zero_le _, nofun⟩,
    .of_stopped rfl, hc⟩

/-! ## Fair runs and what they lead to -/

/-- A fair run from a state in order (R323): every state on it is in order (R290). -/
structure OrderedRun (run : Nat → State) (moved : Nat → Agent) : Prop where
  fair : FairRun run moved
  order : ∀ n, InOrder (run n)

/-- From every point of the run where `P` holds, the run comes to a point where `Q` holds. -/
def LeadsTo (run : Nat → State) (P Q : State → Prop) : Prop := ∀ n, P (run n) → ∃ m, n ≤ m ∧ Q (run m)

section FairRuns
variable {run : Nat → State} {moved : Nat → Agent} {P Q R : State → Prop}

theorem FairRun.ordered (h : FairRun run moved) (h0 : InOrder (run 0)) : OrderedRun run moved where
  fair := h
  order n := by
    induction n with
    | zero => exact h0
    | succ n ih => exact ih.agent (h.1 n)

/-- The agents other than the sequencer leave the place of the command alone. -/
theorem agentStep_pc {a : Agent} {s t : State} (ha : a ≠ .seq) (h : agentStep a s = .next t) : t.pc = s.pc := by
  rw [agentStep_frame ha h]

/-- The configuration is the same all along a run (R9). -/
theorem IsRun.cfg (h : IsRun run moved) (n : Nat) : (run n).cfg = (run 0).cfg := by
  induction n with
  | zero => rfl
  | succ n ih => exact (agentStep_extends (h n)).cfg.trans ih

/-- What ends and cannot end otherwise than with `Q`, ends with `Q`. -/
theorem exists_of_unless {P : Nat → Prop} {Q : Nat → Prop} (hstep : ∀ k, P k → P (k + 1) ∨ Q (k + 1)) (h0 : P 0)
    {n : Nat} (hn : ¬ P n) : ∃ m, Q m := by
  by_contra! hq
  have always (k : Nat) : P k := by
    induction k with
    | zero => exact h0
    | succ k hk => exact (hstep k hk).resolve_right (hq _)
  exact hn (always n)

theorem LeadsTo.of_imp (h : ∀ u, P u → Q u) : LeadsTo run P Q := fun n hn => ⟨n, le_rfl, h _ hn⟩

theorem LeadsTo.trans (h : LeadsTo run P Q) (h' : LeadsTo run Q R) : LeadsTo run P R := by
  intro n hn
  obtain ⟨m, hnm, hm⟩ := h n hn
  obtain ⟨k, hmk, hk⟩ := h' m hm
  exact ⟨k, hnm.trans hmk, hk⟩

theorem LeadsTo.or (h : LeadsTo run P R) (h' : LeadsTo run Q R) : LeadsTo run (fun u => P u ∨ Q u) R :=
  fun n hn => hn.elim (h n) (h' n)

/-- What leads to `Q`, or to itself with something less left, leads to `Q`. -/
theorem LeadsTo.induct {ι : Type} [LT ι] [WellFoundedLT ι] {P : ι → State → Prop}
    (h : ∀ x, LeadsTo run (P x) (fun v => Q v ∨ ∃ y, y < x ∧ P y v)) (x : ι) : LeadsTo run (P x) Q := by
  induction x using WellFoundedLT.induction with
  | ind x ih =>
    refine (h x).trans fun n hn => ?_
    obtain hq | ⟨y, hy, hp⟩ := hn
    · exact ⟨n, le_rfl, hq⟩
    · exact ih y hy n hp

namespace OrderedRun
variable (h : OrderedRun run moved)
include h

theorem step (n : Nat) : agentStep (moved n) (run n) = .next (run (n + 1)) := h.fair.1 n

theorem microStep {n : Nat} (hseq : moved n = .seq) : microStep (run n) = .next (run (n + 1)) := by
  have hstep := h.step n
  rwa [hseq] at hstep

/-- An agent whose step stays enabled until `Q` comes, and brings `Q` about, brings the run to `Q` (R323). -/
theorem ensures {a : Agent} (hfair : WeaklyFair a run moved) (henabled : ∀ u, InOrder u → P u → agentEnabled u a = true)
    (hstep : ∀ b u v, InOrder u → P u → agentStep b u = .next v → Q v ∨ P v ∧ b ≠ a) : LeadsTo run P Q := by
  intro n hn
  by_contra! hq
  have stays (k : Nat) (hk : n ≤ k) (hp : P (run k)) : P (run (k + 1)) ∧ moved k ≠ a :=
    (hstep _ _ _ (h.order k) hp (h.step k)).resolve_left (hq _ (by omega))
  have always := Nat.le_induction (P := fun k _ => P (run k)) hn fun k hk hp => (stays k hk hp).1
  obtain ⟨m, hnm, hm⟩ := hfair n fun m hm => henabled _ (h.order m) (always m hm)
  exact (stays m hnm (always m hnm)).2 hm

/-- The sequencer's next micro-step comes, and until then the other agents leave the place of the command alone (R323). -/
theorem seq_leadsTo {pc : Pc} (hbusy : pc ≠ .idle)
    (hstep : ∀ u v, InOrder u → u.pc = pc → Machine.microStep u = .next v → Q v) : LeadsTo run (fun u => u.pc = pc) Q := by
  obtain ⟨-, -, -, -, hseq⟩ := h.fair
  refine h.ensures hseq (fun u _ hp => decide_eq_true (by rwa [hp])) fun b u v ho hp hv => ?_
  by_cases hb : b = .seq
  · subst hb
    exact .inl (hstep u v ho hp hv)
  · exact .inr ⟨(agentStep_pc hb hv).trans hp, hb⟩

/-- At each point some agent helps: its step is enabled until less is left or `Q` comes, and brings one of the two about;
so the run comes to `Q`. -/
theorem progress {ι : Type} [LT ι] [WellFoundedLT ι] {P : ι → State → Prop} {helpful : State → Agent}
    (hfair : ∀ x u, P x u → WeaklyFair (helpful u) run moved)
    (henabled : ∀ x u, InOrder u → P x u → agentEnabled u (helpful u) = true)
    (hstep : ∀ x b u v, InOrder u → P x u → agentStep b u = .next v →
      Q v ∨ (∃ y, y < x ∧ P y v) ∨ P x v ∧ helpful v = helpful u ∧ b ≠ helpful u) (x : ι) :
    LeadsTo run (P x) Q := by
  refine LeadsTo.induct (fun x n hn => ?_) x
  refine h.ensures (P := fun u => P x u ∧ helpful u = helpful (run n)) (Q := fun v => Q v ∨ ∃ y, y < x ∧ P y v)
    (hfair x _ hn) ?_ ?_ n ⟨hn, rfl⟩
  · rintro u ho ⟨hp, ha⟩
    rw [← ha]
    exact henabled x u ho hp
  · rintro b u v ho ⟨hp, ha⟩ hv
    obtain hq | hless | ⟨hp', hsame, hb⟩ := hstep x b u v ho hp hv
    · exact .inl (.inl hq)
    · exact .inl (.inr hless)
    · exact .inr ⟨⟨hp', hsame.trans ha⟩, ha ▸ hb⟩

end OrderedRun
end FairRuns

/-! ## Draining -/

/-- How many words and steps the transfer and the FIFO still have before them (R141, R184). -/
def drainLeft (s : State) : Nat :=
  (if s.dma.phase = .running then 2 * (transferLength s - s.dma.next) + 1 else 0) + s.fifo.length

/-- The channel is stopped and the FIFO is empty: no WAIT_IDLE holds (R181). -/
def Drained (s : State) : Prop := s.dma.phase = .stopped ∧ s.fifo = []

/-- The agent that a transfer waits for: the PWM while the FIFO holds a word, then the channel while it runs, and the
sequencer once all is drained (R182). -/
def drainer (s : State) : Agent :=
  if s.fifo ≠ [] then .pwm else if s.dma.phase = .running then .dma else .seq

theorem drainer_eq_seq {s : State} : drainer s = .seq ↔ Drained s := by
  unfold drainer Drained
  cases s.fifo <;> cases s.dma.phase <;> simp

theorem drainer_eq_dma {s : State} : drainer s = .dma ↔ s.dma.phase = .running ∧ s.fifo = [] := by
  unfold drainer
  cases s.fifo <;> cases s.dma.phase <;> simp

theorem drainer_eq_pwm {s : State} : drainer s = .pwm ↔ s.fifo ≠ [] := by
  unfold drainer
  cases s.fifo <;> cases s.dma.phase <;> simp

theorem drainLeft_congr {s t : State} (hd : t.dma = s.dma) (hf : t.fifo = s.fifo) :
    drainLeft t = drainLeft s ∧ drainer t = drainer s := by
  unfold drainLeft drainer transferLength
  rw [hd, hf]
  exact ⟨rfl, rfl⟩

/-- In a Ready block in order the peripherals are as SETUP left them (R314). -/
theorem InOrder.hardware_of_ready {s : State} (h : InOrder s) (hl : s.life = .ready) : HardwareReady s := by
  obtain ⟨-, -, hhw, -⟩ := h
  refine (hardwareMatches_other fun pin n st hp => ?_).mp hhw hl
  obtain ⟨hlife, -⟩ := (hardwareMatches_setup hp).mp hhw
  rw [hl] at hlife
  cases hlife

/-- A running transfer has moved no more words than it names (R184). -/
theorem InOrder.next_le {s : State} (h : InOrder s) (hp : s.dma.phase = .running) : s.dma.next ≤ transferLength s := by
  obtain ⟨hplace, hlen, -⟩ := h.running hp
  obtain ⟨-, -, -, hstage, -, hrunning⟩ := h
  obtain ⟨-, -, -, -, -, -, -, hnext⟩ := hrunning hp
  rwa [hlen, ← hstage _ hplace (by simp)]

/-- The PWM's step takes a word off a FIFO that holds one (R141). -/
theorem pwmStep_fifo {s : State} (he : pwmEnabled s = true) : (pwmStep s).fifo = s.fifo.tail := by
  unfold pwmStep
  rw [if_pos he]
  cases s.fifo <;> rfl

/-- A running channel with an empty FIFO moves a word, or ends (R184, R314). -/
theorem InOrder.dmaStep_drains {s t : State} (h : InOrder s) (hl : s.life = .ready) (hp : s.dma.phase = .running)
    (hf : s.fifo = []) (ht : dmaStep s = .next t) : drainLeft t < drainLeft s := by
  obtain ⟨-, hlen, hwords⟩ := h.running hp
  have hnext := h.next_le hp
  by_cases hmore : s.dma.next < transferLength s
  · have hd := (h.hardware_of_ready hl).flagDreq h.1 hf
    cases (dmaStep_move hp hmore hd (fifoInBlock_of_configOk h.1) (hwords _ (by omega))).symm.trans ht
    unfold transferLength at hmore
    simp only [drainLeft, transferLength, hp, hf, if_true, List.nil_append, List.length_nil, List.length_singleton]
    omega
  · cases (dmaStep_end hp (by omega)).symm.trans ht
    simp [drainLeft, hp]

/-- The channel's step leaves less before it, or changes nothing that drains (R184). -/
theorem dmaStep_drainLeft {s t : State} (ht : dmaStep s = .next t) :
    drainLeft t < drainLeft s ∨ t.dma = s.dma ∧ t.fifo = s.fifo := by
  obtain rfl | ⟨w, hp, hmore, -, -, -, rfl⟩ | ⟨-, rfl⟩ | ⟨-, -, rfl⟩ | ⟨hp, -, rfl⟩ := dmaStep_cases ht
  · exact .inr ⟨rfl, rfl⟩
  · left
    unfold transferLength at hmore
    simp only [drainLeft, transferLength, hp, if_true, List.length_append, List.length_singleton]
    omega
  · exact .inr ⟨rfl, rfl⟩
  · exact .inr ⟨rfl, rfl⟩
  · left
    simp [drainLeft, hp]

/-- Only the channel, the PWM and the sequencer can touch the FIFO (R42, R141, R184). -/
theorem agentStep_fifo {a : Agent} {s t : State} (hseq : a ≠ .seq) (hdma : a ≠ .dma) (hpwm : a ≠ .pwm)
    (ht : agentStep a s = .next t) : t.fifo = s.fifo := by
  cases a with
  | seq => exact absurd rfl hseq
  | dma => exact absurd rfl hdma
  | pwm => exact absurd rfl hpwm
  | clk => cases ht; obtain ⟨-, hs⟩ | ⟨-, hs⟩ := clkStep_cases s <;> rw [hs]
  | timer => cases ht; rfl
  | host => cases ht; obtain ⟨acts, n, input, term, hs, -⟩ := hostStep_cases s; rw [hs]
  | platform => cases ht; obtain ⟨-, hs⟩ | ⟨r, ans, as, n, -, hs⟩ := platformStep_cases s <;> rw [hs]

/-- In a Ready block each agent but the sequencer leaves less to drain, or as much, with the same agent to wait for, and
is not that agent (R141, R182, R184). -/
theorem InOrder.agent_drains {a : Agent} {s t : State} (h : InOrder s) (hl : s.life = .ready) (ha : a ≠ .seq)
    (ht : agentStep a s = .next t) :
    drainLeft t < drainLeft s ∨ drainLeft t = drainLeft s ∧ drainer t = drainer s ∧ a ≠ drainer s := by
  have same (hd : t.dma = s.dma) (hf : t.fifo = s.fifo) (hne : a ≠ drainer s) :
      drainLeft t < drainLeft s ∨ drainLeft t = drainLeft s ∧ drainer t = drainer s ∧ a ≠ drainer s := by
    obtain ⟨hleft, hdrainer⟩ := drainLeft_congr hd hf
    exact .inr ⟨hleft, hdrainer, hne⟩
  by_cases hdma : a = .dma
  · subst hdma
    by_cases hhelps : s.dma.phase = .running ∧ s.fifo = []
    · exact .inl (h.dmaStep_drains hl hhelps.1 hhelps.2 ht)
    · obtain hless | ⟨hd, hf⟩ := dmaStep_drainLeft ht
      · exact .inl hless
      · exact same hd hf fun he => hhelps (drainer_eq_dma.mp he.symm)
  obtain ⟨-, -, -, -, -, -, -, -, hchannel, -⟩ := agentsOwnTheirState a s t ht
  have hd := hchannel hdma ha
  by_cases hpwm : a = .pwm
  · subst hpwm
    cases ht
    have htail := pwmStep_fifo (h.hardware_of_ready hl).pwmEnabled
    cases hf : s.fifo with
    | nil => exact same hd (by rw [htail, hf, List.tail_nil]) fun he => drainer_eq_pwm.mp he.symm hf
    | cons w ws =>
      left
      simp only [drainLeft, transferLength, hd, htail, hf, List.tail_cons, List.length_cons]
      omega
  · refine same hd (agentStep_fifo ha hdma hpwm ht) ?_
    unfold drainer
    split_ifs <;> assumption

/-- The agent a transfer waits for has a step to take (R141, R184). -/
theorem InOrder.drainer_enabled {s : State} (h : InOrder s) (hl : s.life = .ready) (hp : s.pc ≠ .idle) :
    agentEnabled s (drainer s) = true := by
  have hhw := h.hardware_of_ready hl
  by_cases hf : s.fifo = []
  · by_cases hr : s.dma.phase = .running
    · have hnext := Nat.lt_or_eq_of_le (h.next_le hr)
      rw [drainer_eq_dma.mpr ⟨hr, hf⟩]
      simpa [agentEnabled, hr, hhw.flagDreq h.1 hf] using hnext
    · rw [drainer, if_neg (by simpa using hf), if_neg hr]
      exact decide_eq_true hp
  · rw [drainer_eq_pwm.mpr hf]
    exact hhw.pwmEnabled

/-! ## The transfers' commands -/

section Performing
variable {α : Type} {step : α → State → Proc α} {wrap : α → Pc} {finish : State → State} {run : Nat → State}
  {moved : Nat → Agent}

/-- A micro-step leaves less to do, or holds because the transfer has not drained; it raises nothing (R182). `left`
counts what is left at a place, with the SourceBuffer's capacity. -/
def Advances (left : Nat → α → Nat) (D : State → Prop) (l : α) (s : State) (p : Proc α) : Prop :=
  p.Meets (fun l' t => left t.capacity l' < left s.capacity l ∨ (l' = l ∧ t = s) ∧ ¬ Drained s) D fun _ _ _ => False

/-- The command stands at a place of the procedure, with so much left to do, and so much to drain. -/
def HasLeft (wrap : α → Pc) (left : Nat → α → Nat) (x : ℕ ×ₗ ℕ) (s : State) : Prop :=
  ∃ l, s.pc = wrap l ∧ x = toLex (left s.capacity l, drainLeft s)

/-- The procedure has come to its end in a state where `D` holds, and the command has done `finish` (R23). -/
def Finished (finish : State → State) (D : State → Prop) (s : State) : Prop := ∃ t, D t ∧ s = finish t

/-- A procedure of a Ready block that advances at each micro-step ends: while a transfer drains, the agent it waits for
helps it on, and afterwards the sequencer (R182, R323). -/
theorem Performs.ends (h : Performs step wrap finish) (hrun : OrderedRun run moved) {left : Nat → α → Nat}
    {D : State → Prop} (hready : ∀ l u, InOrder u → u.pc = wrap l → u.life = .ready)
    (hstep : ∀ l u, InOrder u → u.pc = wrap l → Advances left D l u (step l u)) :
    LeadsTo run (fun u => ∃ l, u.pc = wrap l) (Finished finish D) := by
  obtain ⟨-, hdma, hpwm, -, hseq⟩ := hrun.fair
  refine fun n ⟨l, hl⟩ => hrun.progress (P := HasLeft wrap left) (Q := Finished finish D) (helpful := drainer) ?_ ?_ ?_ _
    n ⟨l, hl, rfl⟩
  · rintro x u -
    unfold drainer
    split_ifs <;> assumption
  · rintro x u ho ⟨l, hl, -⟩
    exact ho.drainer_enabled (hready l u ho hl) (by rw [hl]; exact h.busy l)
  · rintro x a u v ho ⟨l, hl, rfl⟩ hv
    by_cases ha : a = .seq
    · subst ha
      obtain ⟨l', t, hp, rfl⟩ | ⟨t, hp, rfl⟩ | ⟨x, d, t, hp, rfl⟩ := resolve_next ((h.microStep l u hl).symm.trans hv)
      all_goals
        have hmeets := hstep l u ho hl
        rw [hp] at hmeets
      · obtain hless | ⟨⟨rfl, rfl⟩, hholds⟩ := hmeets
        · exact .inr (.inl ⟨_, Prod.Lex.toLex_lt_toLex.mpr (.inl hless), l', rfl, rfl⟩)
        · rw [State.setPc_self hl]
          exact .inr (.inr ⟨⟨l', hl, rfl⟩, rfl, fun he => hholds (drainer_eq_seq.mp he.symm)⟩)
      · exact .inl ⟨t, hmeets, rfl⟩
      · exact hmeets.elim
    · have hframe := agentStep_frame ha hv
      have hpc : v.pc = wrap l := by rw [hframe]; exact hl
      have hcap : v.capacity = u.capacity := by rw [hframe]
      obtain hless | ⟨hsame, hdrainer, hne⟩ := ho.agent_drains (hready l u ho hl) ha hv
      · refine .inr (.inl ⟨_, ?_, l, hpc, rfl⟩)
        rw [hcap]
        exact Prod.Lex.toLex_lt_toLex.mpr (.inr ⟨rfl, hless⟩)
      · exact .inr (.inr ⟨⟨l, hpc, by rw [hcap, hsame]⟩, hdrainer, hne⟩)

end Performing

/-- How much SEND has left to do, for `n` elements (R221). -/
def sendLeft (n : Nat) : SendStep → Nat
  | .e1 => n + 18
  | .e2 .w1 => n + 17
  | .e2 .w2 => n + 16
  | .e3 x => transmitLeft n x + 2
  | .e4 .w1 => 2
  | .e4 .w2 => 1

/-- The same for CLEAR_ALL (R224). -/
def clearLeft (n : Nat) : ClearStep → Nat
  | .fill => n + 19
  | .send e => sendLeft n e

/-- The same for CLEANUP (R188, R226). -/
def cleanupLeft (n : Nat) : CleanupStep → Nat
  | .c1 c => clearLeft n c + 8
  | .c2 (.l1 .w1) => 8
  | .c2 (.l1 .w2) => 7
  | .c2 .l2 => 6
  | .c2 .l3 => 5
  | .c2 .l4 => 4
  | .c2 .l5 => 3
  | .c3 => 2
  | .c4 => 1

/-- WAIT_IDLE goes on, or holds because the transfer has not drained (R181, R182). -/
theorem waitStep_advances (w : WaitStep) {s : State} (hc : configOk s.cfg = true) (hm : s.mapped = true) :
    (waitStep w s).Meets (fun l t => t = s ∧ (w = .w1 ∧ l = .w2 ∨ l = w ∧ ¬ Drained s))
      (fun t => w = .w2 ∧ t = { s with dmaState := .idle }) (fun _ _ _ => False) := by
  unfold waitStep
  cases w with
  | w1 =>
    dsimp only
    rw [Proc.read_eq hm (regInBlock_fixed hc (by simp))]
    unfold flagActive
    cases hp : s.dma.phase with
    | running => exact ⟨rfl, .inr ⟨rfl, fun hd => by cases hp.symm.trans hd.1⟩⟩
    | stopped => exact ⟨rfl, .inl ⟨rfl, rfl⟩⟩
  | w2 =>
    dsimp only
    rw [Proc.read_eq hm (regInBlock_fixed hc (by simp))]
    unfold flagEmpt
    cases hf : s.fifo with
    | nil => exact ⟨rfl, rfl⟩
    | cons x xs => exact ⟨rfl, .inr ⟨rfl, fun hd => by cases hf.symm.trans hd.2⟩⟩

/-- A WAIT_IDLE that a procedure calls advances where W1 has more left than W2, and W2 more than what follows. -/
theorem Advances.wait {α : Type} {left : Nat → α → Nat} {D : State → Prop} {place : WaitStep → α}
    {next : State → Proc α} (w : WaitStep) {s : State} (hc : configOk s.cfg = true) (hm : s.mapped = true)
    (hplaces : left s.capacity (place .w2) < left s.capacity (place .w1))
    (hnext : Advances left D (place .w2) s (next { s with dmaState := .idle })) :
    Advances left D (place w) s ((waitStep w s).call place next) := by
  refine Proc.meets_call ((waitStep_advances w hc hm).mono ?_ ?_ fun _ _ _ hno => hno)
  · rintro l t ⟨rfl, ⟨rfl, rfl⟩ | ⟨rfl, hholds⟩⟩
    · exact .inl hplaces
    · exact .inr ⟨⟨rfl, rfl⟩, hholds⟩
  · rintro t ⟨rfl, rfl⟩
    exact hnext

/-- A procedure that advances, advances where another calls it, if the call counts for the same more at each place, and
what follows advances too. -/
theorem Advances.call {α β : Type} {left : Nat → α → Nat} {left' : Nat → β → Nat} {D D' : State → Prop} {l : α}
    {p : Proc α} {wrap : α → β} {next : State → Proc β} {s : State} (h : Advances left D l s p) (c : Nat)
    (hleft : ∀ n l, left' n (wrap l) = left n l + c) (hnext : ∀ t, D t → Advances left' D' (wrap l) s (next t)) :
    Advances left' D' (wrap l) s (p.call wrap next) := by
  refine Proc.meets_call (Proc.Meets.mono h ?_ hnext fun _ _ _ hno => hno)
  rintro l t (hless | ⟨⟨rfl, rfl⟩, hholds⟩)
  · refine .inl ?_
    rw [hleft, hleft]
    exact Nat.add_lt_add_right hless c
  · exact .inr ⟨⟨rfl, rfl⟩, hholds⟩

/-- All through SEND the block is Ready (R221). -/
theorem InOrder.sending_ready {s : State} {e : SendStep} (h : InOrder s) (hp : sendPlace s.pc = some e) :
    s.life = .ready := by
  obtain ⟨⟨hlife, -⟩, -⟩ := h.sending hp
  exact hlife

/-- SEND advances at each micro-step, and ends with the block Ready (R178, R182, R221). -/
theorem InOrder.send_advances {s : State} {e : SendStep} (h : InOrder s) (hp : sendPlace s.pc = some e) :
    Advances sendLeft (fun t => t.life = .ready) e s (sendStep e s) := by
  obtain ⟨hh, ht⟩ := h.sending hp
  obtain ⟨hc, -, -, hloaded⟩ := h
  have hload := (transferLoaded_sending hp).mp hloaded
  obtain ⟨hlife, hm, ⟨r, hr, -⟩, hbuffers, -⟩ := id hh
  cases e with
  | e1 => exact .inl (by simp [sendLeft])
  | e2 w => exact Advances.wait w hc hm (by simp [sendLeft]) (.inl (by simp [sendLeft, transmitLeft]))
  | e3 x =>
    obtain ⟨hstage, hx, -⟩ := id hload
    have hleft := transmitStep_left x hr (hx x r rfl hr)
    rw [hstage (by simp), hbuffers.waveform_length] at hleft
    have advances : (sendStep (.e3 x) s).Meets (fun l _ => sendLeft s.capacity l < sendLeft s.capacity (.e3 x))
        (fun _ => False) (fun _ _ _ => True) := by
      refine Proc.meets_call (hleft.mono (fun l _ hl => ?_) (fun _ hl => ?_) fun _ _ _ h => h)
      · simp only [sendLeft]
        omega
      · rw [Proc.meets_goto, sendLeft, sendLeft]
        omega
    refine Proc.Meets.mono (((sendStep_runs (.e3 x) hc hh ht hload).meets.and advances).and (sendStep_same _ s))
      ?_ (fun _ hd => hd.1.2.elim) fun _ _ _ hr => hr.1.1
    rintro l t ⟨⟨-, hless⟩, hsame⟩
    rw [show t.capacity = s.capacity by rw [hsame]]
    exact .inl hless
  | e4 w => exact Advances.wait w hc hm (by simp [sendLeft]) hlife

/-- CLEAR_ALL's steps advance too, wherever they are performed (R224). -/
theorem InOrder.clear_advances {s : State} {c : ClearStep} (h : InOrder s)
    (hp : ∀ e, c = .send e → sendPlace s.pc = some e) :
    Advances clearLeft (fun t => t.life = .ready) c s (clearStep c s) := by
  cases c with
  | fill => exact .inl (by simp [clearLeft, sendLeft])
  | send e => exact (h.send_advances (hp e rfl)).call 0 (fun _ _ => rfl) fun _ hd => hd

/-- RELEASE's wait, seen from CLEANUP (R188, R226). -/
theorem cleanupStep_l1 {w : WaitStep} {s : State} (hr : s.region.isSome = true) (hm : s.mapped = true) :
    cleanupStep (.c2 (.l1 w)) s = (waitStep w s).call (fun w => .c2 (.l1 w)) (.goto (.c2 .l2)) := by
  rw [cleanupStep, releaseStep_l1 hr w hm]
  cases waitStep w s <;> rfl

theorem clearLeft_pos (n : Nat) (c : ClearStep) : 0 < clearLeft n c := by
  cases c with
  | fill => simp [clearLeft]
  | send e =>
    cases e with
    | e1 | e3 x => simp [clearLeft, sendLeft]
    | e2 w | e4 w => cases w <;> simp [clearLeft, sendLeft]

/-- CLEANUP's steps advance too, and end with the block Unconfigured (R188, R226). -/
theorem InOrder.cleanup_advances {s : State} {c : CleanupStep} (h : InOrder s) (hheld : cleanupResources s c)
    (hp : ∀ e, c = .c1 (.send e) → sendPlace s.pc = some e) :
    Advances cleanupLeft (fun t => t.life = .unconfigured) c s (cleanupStep c s) := by
  cases c with
  | c1 a =>
    exact (h.clear_advances fun e he => hp e (by rw [he])).call 8 (fun _ _ => rfl) fun t _ =>
      .inl (Nat.lt_add_of_pos_left (clearLeft_pos _ a))
  | c2 l =>
    cases l with
    | l1 w =>
      obtain ⟨-, hm, ⟨r, hr, -⟩, -⟩ := hheld
      rw [cleanupStep_l1 (by rw [hr]; rfl) hm]
      refine Advances.wait (place := fun w => CleanupStep.c2 (.l1 w)) w h.1 hm ?_ (.inl ?_) <;> simp [cleanupLeft]
    | l2 =>
      obtain ⟨-, -, ⟨r, hr, -⟩, -⟩ := hheld
      rw [cleanupStep, releaseStep_l2 (by rw [hr]; rfl)]
      exact .inl (by simp [cleanupLeft])
    | l3 =>
      obtain ⟨-, -, hr, -⟩ := hheld
      rw [cleanupStep, releaseStep_l3 hr]
      exact .inl (by simp [cleanupLeft])
    | l4 =>
      obtain ⟨-, -, hr, -⟩ := hheld
      rw [cleanupStep, releaseStep_l4 hr]
      exact .inl (by simp [cleanupLeft])
    | l5 =>
      obtain ⟨-, -, hr, -⟩ := hheld
      rw [cleanupStep_l5 hr]
      exact .inl (by simp [cleanupLeft])
  | c3 => exact .inl (by simp [cleanupLeft])
  | c4 => rfl

/-- All through CLEANUP the block is Ready (R226). -/
theorem cleanupResources_ready {s : State} {c : CleanupStep} (h : cleanupResources s c) : s.life = .ready := by
  cases c with
  | c1 a => exact h.1
  | c2 l => cases l <;> exact h.1
  | c3 | c4 => exact h.1

section Ends
variable {run : Nat → State} {moved : Nat → Agent} (h : OrderedRun run moved)
include h

/-- In a fair run SEND ends with OK, in a Ready block (R182, R221, R323). -/
theorem OrderedRun.send_ends :
    LeadsTo run (fun u => ∃ e, u.pc = .send e) (Finished (endCommand []) fun t => t.life = .ready) :=
  send_performs.ends h (fun _ _ ho hp => ho.sending_ready (by rw [hp]; rfl))
    fun _ _ ho hp => ho.send_advances (by rw [hp]; rfl)

/-- In a fair run CLEAR_ALL ends with OK, in a Ready block (R182, R224, R323). -/
theorem OrderedRun.clear_ends :
    LeadsTo run (fun u => ∃ c, u.pc = .clearAll c) (Finished (endCommand []) fun t => t.life = .ready) := by
  refine clear_performs.ends h (fun c u ho hp => ?_) fun c u ho hp => ho.clear_advances ?_
  · obtain ⟨-, hheld, -⟩ := ho
    rw [HeldMatch, hp] at hheld
    exact hheld.1
  · rintro e rfl
    rw [hp]
    rfl

/-- In a fair run CLEANUP's steps come to their end, in an Unconfigured block, whichever command performs them (R182,
R226, R284, R323). -/
theorem Performs.cleanup_ends {wrap : CleanupStep → Pc} {finish : State → State}
    (hcleanup : Performs cleanupStep wrap finish) (hsend : ∀ e, sendPlace (wrap (.c1 (.send e))) = some e)
    (hheld : ∀ c u, u.pc = wrap c → HeldMatch u → cleanupResources u c) :
    LeadsTo run (fun u => ∃ c, u.pc = wrap c) (Finished finish fun t => t.life = .unconfigured) := by
  refine hcleanup.ends h (fun c u ho hp => cleanupResources_ready (hheld c u hp ho.2.1)) fun c u ho hp =>
    ho.cleanup_advances (hheld c u hp ho.2.1) ?_
  rintro e rfl
  rw [hp, hsend]

end Ends

theorem heldMatch_cleanup {s : State} {c : CleanupStep} (hp : s.pc = .cleanup c) (h : HeldMatch s) :
    cleanupResources s c := by
  rwa [HeldMatch, hp] at h

theorem heldMatch_terminate {s : State} {c : CleanupStep} (hp : s.pc = .terminate c) (h : HeldMatch s) :
    cleanupResources s c := by
  rwa [HeldMatch, hp] at h

/-! ## K4 and K7: the polled clock -/

section Clock
variable {run : Nat → State} {moved : Nat → Agent} {N g : Nat}

@[simp] theorem timerSteps_self (moved : Nat → Agent) (n : Nat) : timerSteps moved n n = 0 := by simp [timerSteps]

theorem timerSteps_succ {n m : Nat} (h : n ≤ m) :
    timerSteps moved n (m + 1) = timerSteps moved n m + if moved m = .timer then 1 else 0 := by
  have hlast : n + (m - n) = m := by omega
  unfold timerSteps
  rw [Nat.succ_sub h, List.range_succ, List.filter_append, List.length_append, List.filter_singleton, hlast]
  split_ifs <;> simp_all

theorem timerSteps_add {n r m : Nat} (hn : n ≤ r) (hr : r ≤ m) :
    timerSteps moved n m = timerSteps moved n r + timerSteps moved r m := by
  induction m, hr using Nat.le_induction with
  | base => simp
  | succ m hm ih => rw [timerSteps_succ (hn.trans hm), timerSteps_succ hm, ih, Nat.add_assoc]

/-- A fair TIMER takes any number of steps (R40, R323). -/
theorem timerSteps_unbounded (h : WeaklyFair .timer run moved) (N b : Nat) : ∃ m, N ≤ m ∧ b ≤ timerSteps moved N m := by
  induction b with
  | zero => exact ⟨N, le_rfl, Nat.zero_le _⟩
  | succ b ih =>
    obtain ⟨m, hNm, hb⟩ := ih
    obtain ⟨k, hmk, hk⟩ := h m fun _ _ => rfl
    refine ⟨k + 1, by omega, ?_⟩
    rw [timerSteps_succ (by omega), timerSteps_add hNm hmk, if_pos hk]
    omega

/-- CLO shows the steps TIMER has taken, modulo 2^32 (R40). -/
theorem IsRun.elapsed (h : IsRun run moved) (t0 : Word) {m : Nat} (hm : N ≤ m) :
    elapsed t0 (run m).clo = (elapsed t0 (run N).clo + timerSteps moved N m) % 2 ^ 32 := by
  induction m, hm using Nat.le_induction with
  | base => simp [Machine.elapsed]
  | succ m hm ih =>
    obtain ⟨htimer, hother, -⟩ := agentsOwnTheirState _ _ _ (h m)
    rw [timerSteps_succ hm]
    by_cases ht : moved m = .timer
    · rw [if_pos ht, htimer ht, ← Nat.add_assoc, Nat.add_mod, ← ih]
      simp only [Machine.elapsed]
      bv_omega
    · rw [if_neg ht, hother ht, ih, Nat.add_zero]

/-- The place of a command is the same at two points of a run between which the sequencer does not move. -/
theorem IsRun.pc_eq (h : IsRun run moved) {r k : Nat} (hrk : r ≤ k) (hseq : ∀ j, r ≤ j → j < k → moved j ≠ .seq) :
    (run k).pc = (run r).pc := by
  induction k, hrk using Nat.le_induction with
  | base => rfl
  | succ k hk ih =>
    rw [agentStep_frame (hseq k hk k.lt_succ_self) (h k)]
    exact ih fun j hj hjk => hseq j hj (hjk.trans k.lt_succ_self)

/-- The sequencer last moved before `k` at a point `r` after which less than `β` of the place had elapsed, counted from
`N` without wrapping. -/
def PolledInTime (run : Nat → State) (moved : Nat → Agent) (N : Nat) (β : Pc → Nat) (e0 k : Nat) : Prop :=
  ∃ r, N ≤ r ∧ r ≤ k ∧ (∀ j, r ≤ j → j < k → moved j ≠ .seq) ∧ e0 + timerSteps moved N r < β (run r).pc

/-- A prompt sequencer cannot poll for ever and see less than the place's bound `β` elapsed each time: between two polls
CLO does not pass the room to 2^32, so it does not wrap unseen, and TIMER takes any number of steps (R40, R323; log 23). -/
theorem OrderedRun.clock_runs_out (h : OrderedRun run moved) (hprompt : PromptSeq g run moved) {t0 : Word}
    {β : Pc → Nat} (hbusy : ∀ k, N ≤ k → (run k).pc ≠ .idle) (hroom : ∀ k, N ≤ k → β (run k).pc + g ≤ 2 ^ 32)
    (hstart : elapsed t0 (run N).clo < β (run N).pc)
    (hpoll : ∀ k, N ≤ k → moved k = .seq → elapsed t0 (run k).clo < β (run k).pc + g →
      elapsed t0 (run (k + 1)).clo < β (run (k + 1)).pc) : False := by
  obtain ⟨hrun, -, -, htimer, -⟩ := h.fair
  set e0 := elapsed t0 (run N).clo
  have near (k : Nat) (hp : PolledInTime run moved N β e0 k) :
      N ≤ k ∧ e0 + timerSteps moved N k < β (run k).pc + g ∧ e0 + timerSteps moved N k < 2 ^ 32 := by
    obtain ⟨r, hNr, hrk, hseq, hr⟩ := hp
    have hbound := hprompt r k hrk (fun j hj _ => hbusy j (hNr.trans hj)) hseq
    have hpc := hrun.pc_eq hrk hseq
    have hk := hroom k (hNr.trans hrk)
    rw [timerSteps_add hNr hrk]
    rw [hpc] at hk ⊢
    omega
  have seen (k : Nat) (hNk : N ≤ k) (hlt : e0 + timerSteps moved N k < 2 ^ 32) :
      elapsed t0 (run k).clo = e0 + timerSteps moved N k := by
    rw [hrun.elapsed t0 hNk, Nat.mod_eq_of_lt hlt]
  have always (k : Nat) (hNk : N ≤ k) : PolledInTime run moved N β e0 k := by
    induction k, hNk using Nat.le_induction with
    | base => exact ⟨N, le_rfl, le_rfl, fun j hj hjk => by omega, by simpa using hstart⟩
    | succ k hNk hp =>
      obtain ⟨-, hin, hlt⟩ := near k hp
      by_cases hseq : moved k = .seq
      · have hnext := hpoll k hNk hseq (by rw [seen k hNk hlt]; exact hin)
        have hsame : timerSteps moved N (k + 1) = timerSteps moved N k := by
          rw [timerSteps_succ hNk, hseq]
          rfl
        rw [seen (k + 1) (by omega) (by omega), hsame] at hnext
        exact ⟨k + 1, by omega, le_rfl, fun j hj hjk => by omega, by rw [hsame]; exact hnext⟩
      · obtain ⟨r, hNr, hrk, hquiet, hr⟩ := hp
        refine ⟨r, hNr, by omega, fun j hj hjk => ?_, hr⟩
        obtain hlt | rfl := Nat.lt_succ_iff_lt_or_eq.mp hjk
        · exact hquiet j hj hlt
        · exact hseq
  obtain ⟨m, hNm, hm⟩ := timerSteps_unbounded htimer N (2 ^ 32)
  obtain ⟨-, -, hlt⟩ := near m (always m hNm)
  omega

end Clock

section Configure
variable {run : Nat → State} {moved : Nat → Agent} {pin n : Int} {e : PinEntry} {k : ConfigureStep} {g : Nat}

/-- A state in order in which SETUP stands is one that SETUP, as the rules have it, has come to. -/
theorem InOrder.setupRuns {s : State} (h : InOrder s) : SetupRuns s s := by
  obtain ⟨hc, hheld, hhw, -⟩ := h
  exact ⟨rfl, hc, hheld, hhw, rfl⟩

/-- The sequencer's micro-step of CONFIGURE in a state in order (R137). -/
theorem InOrder.microStep_configure {s : State} (h : InOrder s) (hp : s.pc = .setup pin n (.s5 e k)) :
    microStep s = resolve (.setup pin n) (endCommand [])
      ((configureEffect e k s).callUndo (.s5 e) mapClose (.goto (.s6 e .a0))) := by
  rw [(setup_performs pin n).microStep _ s hp, h.setupRuns.configureStep_eq hp]

/-- SETUP has ended with CONFIGURATION_ERROR(CLOCK_BUSY_TIMEOUT) (R139). -/
def TimedOut (s : State) : Prop :=
  s.pc = .idle ∧ s.life = .unconfigured
    ∧ s.resp = { status := .configurationError, detail := .clockBusyTimeout, payload := [] }

/-- K4 polls the clock (R137). -/
def PollsBusy (pin n : Int) (e : PinEntry) (t0 : Word) (s : State) : Prop :=
  s.pc = .setup pin n (.s5 e (.k4Busy t0)) ∨ s.pc = .setup pin n (.s5 e (.k4Time t0))

/-- K7's poll goes on to K8, or holds because less than SETTLE_US have passed (R137). -/
theorem InOrder.k7Wait_step {s t : State} {t1 : Word} (h : InOrder s) (hp : s.pc = .setup pin n (.s5 e (.k7Wait t1)))
    (ht : microStep s = .next t) :
    t.pc = .setup pin n (.s5 e .k8) ∨ t = s ∧ elapsed t1 s.clo < s.cfg.settleUs := by
  rw [h.microStep_configure hp, configureEffect] at ht
  split at ht
  · cases ht
    exact .inl rfl
  · next hlate =>
    cases ht
    exact .inr ⟨State.setPc_self hp, by omega⟩

/-- K4's look at BUSY goes on to K5, or to the look at the time with the clock still busy (R137). -/
theorem InOrder.k4Busy_step {s t : State} {t0 : Word} (h : InOrder s) (hp : s.pc = .setup pin n (.s5 e (.k4Busy t0)))
    (ht : microStep s = .next t) :
    s.cm.busy = false ∧ t.pc = .setup pin n (.s5 e .k5)
      ∨ s.cm.busy = true ∧ t = s.setPc (.setup pin n (.s5 e (.k4Time t0))) := by
  rw [h.microStep_configure hp] at ht
  cases hb : s.cm.busy with
  | false =>
    rw [configureEffect_k4Busy_clear hb] at ht
    cases ht
    exact .inl ⟨rfl, rfl⟩
  | true =>
    rw [configureEffect_k4Busy_set hb] at ht
    cases ht
    exact .inr ⟨rfl, rfl⟩

/-- K4's look at the time raises, or goes back to BUSY because less than BUSY_TIMEOUT_US have passed (R137, R139). -/
theorem InOrder.k4Time_step {s t : State} {t0 : Word} (h : InOrder s) (hp : s.pc = .setup pin n (.s5 e (.k4Time t0)))
    (ht : microStep s = .next t) :
    TimedOut t ∨ t = s.setPc (.setup pin n (.s5 e (.k4Busy t0))) ∧ elapsed t0 s.clo < s.cfg.busyTimeoutUs := by
  obtain ⟨-, -, hhw, -⟩ := id h
  obtain ⟨hlife, -⟩ := (hardwareMatches_setup hp).mp hhw
  rw [h.microStep_configure hp, configureEffect] at ht
  split at ht
  · cases ht
    refine .inl ⟨rfl, ?_, rfl⟩
    obtain ⟨-, hs⟩ | ⟨-, hs⟩ := mapClose_cases s <;> (show (mapClose s).life = _; rw [hs]; exact hlife)
  · next hlate =>
    cases ht
    exact .inr ⟨rfl, by omega⟩

/-- How much may have elapsed, at most, when the sequencer comes to a place of K4's poll: the bound is checked at the look
at the time, to which one more poll leads. -/
def pollBound (bound g : Nat) (pc : Pc) : Nat :=
  match pc with
  | .setup _ _ (.s5 _ (.k4Time _)) => bound + g
  | _ => bound

section Waits
variable (h : OrderedRun run moved) (hprompt : PromptSeq g run moved)
include h hprompt

/-- K7's settle wait ends (R137, R323). -/
theorem OrderedRun.settles (hroom : (run 0).cfg.settleUs + g ≤ 2 ^ 32) (t1 : Word) :
    LeadsTo run (fun u => u.pc = .setup pin n (.s5 e (.k7Wait t1))) (fun v => v.pc = .setup pin n (.s5 e .k8)) := by
  have hcfg := h.fair.1.cfg
  refine LeadsTo.trans (Q := fun v => v.pc = .setup pin n (.s5 e .k8) ∨ v.pc = .setup pin n (.s5 e (.k7Wait t1))
    ∧ elapsed t1 v.clo < v.cfg.settleUs) ?_ fun N hN => ?_
  · refine h.seq_leadsTo (by simp) fun u v ho hu hv => ?_
    obtain hk8 | ⟨rfl, hlate⟩ := ho.k7Wait_step hu hv
    · exact .inl hk8
    · exact .inr ⟨hu, hlate⟩
  · obtain hk8 | ⟨hpN, hstart⟩ := hN
    · exact ⟨N, le_rfl, hk8⟩
    by_contra! hnever
    have waits (k : Nat) (hNk : N ≤ k) (hp : (run k).pc = .setup pin n (.s5 e (.k7Wait t1))) :
        (run (k + 1)).pc = .setup pin n (.s5 e (.k7Wait t1))
          ∧ (moved k = .seq → elapsed t1 (run (k + 1)).clo < (run 0).cfg.settleUs) := by
      by_cases hseq : moved k = .seq
      · obtain hk8 | ⟨hsame, hlate⟩ := (h.order k).k7Wait_step hp (h.microStep hseq)
        · exact absurd hk8 (hnever _ (by omega))
        · rw [hsame]
          exact ⟨hp, fun _ => by rw [← hcfg k]; exact hlate⟩
      · exact ⟨(agentStep_pc hseq (h.step k)).trans hp, fun hs => absurd hs hseq⟩
    have always := Nat.le_induction (P := fun k _ => (run k).pc = .setup pin n (.s5 e (.k7Wait t1))) hpN
      fun k hk hp => (waits k hk hp).1
    refine h.clock_runs_out hprompt (N := N) (t0 := t1) (β := fun _ => (run 0).cfg.settleUs) (fun k hk => ?_)
      (fun _ _ => hroom) (by rw [← hcfg N]; exact hstart) fun k hk hs _ => (waits k hk (always k hk)).2 hs
    rw [always k hk]
    simp

/-- K4's poll cannot go on for ever (R137, R139, R323). -/
theorem OrderedRun.polling_ends (hroom : (run 0).cfg.busyTimeoutUs + 2 * g ≤ 2 ^ 32) (t0 : Word) :
    LeadsTo run (fun u => u.pc = .setup pin n (.s5 e (.k4Busy t0)) ∧ elapsed t0 u.clo < u.cfg.busyTimeoutUs)
      (fun v => v.pc = .setup pin n (.s5 e .k5) ∨ TimedOut v) := by
  have hcfg := h.fair.1.cfg
  rintro N ⟨hpN, hstart⟩
  by_contra! hnever
  let β := pollBound (run 0).cfg.busyTimeoutUs g
  have polls (k : Nat) (hNk : N ≤ k) (hp : PollsBusy pin n e t0 (run k)) :
      PollsBusy pin n e t0 (run (k + 1)) ∧ (moved k = .seq → elapsed t0 (run k).clo < β (run k).pc + g →
        elapsed t0 (run (k + 1)).clo < β (run (k + 1)).pc) := by
    obtain ⟨hk5, htime⟩ := hnever (k + 1) (by omega)
    by_cases hseq : moved k = .seq
    · obtain hp | hp := hp
      · obtain ⟨-, hout⟩ | ⟨-, hnext⟩ := (h.order k).k4Busy_step hp (h.microStep hseq)
        · exact absurd hout hk5
        · rw [hp, hnext]
          exact ⟨.inr rfl, fun _ hlt => hlt⟩
      · obtain hout | ⟨hnext, hlate⟩ := (h.order k).k4Time_step hp (h.microStep hseq)
        · exact absurd hout htime
        · rw [hcfg k] at hlate
          rw [hnext]
          exact ⟨.inl rfl, fun _ _ => hlate⟩
    · have hpc := agentStep_pc hseq (h.step k)
      exact ⟨by rwa [PollsBusy, hpc], fun hs => absurd hs hseq⟩
  have always := Nat.le_induction (P := fun k _ => PollsBusy pin n e t0 (run k)) (.inl hpN)
    fun k hk hp => (polls k hk hp).1
  refine h.clock_runs_out hprompt (N := N) (t0 := t0) (β := β) (fun k hk => ?_) (fun k hk => ?_) ?_
    fun k hk => (polls k hk (always k hk)).2
  · obtain hp | hp := always k hk <;> simp [hp]
  · obtain hp | hp := always k hk <;> simp only [β, hp, pollBound] <;> omega
  · rw [hcfg N] at hstart
    simpa only [β, hpN, pollBound] using hstart

/-- K4 ends: the clock has stopped, or BUSY_TIMEOUT_US have passed (R137, R139, R323). -/
theorem OrderedRun.stopsPolling (hroom : (run 0).cfg.busyTimeoutUs + 2 * g ≤ 2 ^ 32) (t0 : Word) :
    LeadsTo run (PollsBusy pin n e t0) (fun v => v.pc = .setup pin n (.s5 e .k5) ∨ TimedOut v) := by
  have time : LeadsTo run (fun u => u.pc = .setup pin n (.s5 e (.k4Time t0)))
      (fun v => v.pc = .setup pin n (.s5 e .k5) ∨ TimedOut v) := by
    refine (h.seq_leadsTo (Q := fun v => TimedOut v ∨ v.pc = .setup pin n (.s5 e (.k4Busy t0))
      ∧ elapsed t0 v.clo < v.cfg.busyTimeoutUs) (by simp) fun u v ho hu hv => ?_).trans
      (.or (.of_imp fun _ => .inr) (h.polling_ends hprompt hroom t0))
    obtain hout | ⟨rfl, hlate⟩ := ho.k4Time_step hu hv
    · exact .inl hout
    · exact .inr ⟨rfl, hlate⟩
  refine LeadsTo.or ((h.seq_leadsTo (Q := fun v => v.pc = .setup pin n (.s5 e .k5)
    ∨ v.pc = .setup pin n (.s5 e (.k4Time t0))) (by simp) fun u v ho hu hv => ?_).trans
    (.or (.of_imp fun _ => .inl) time)) time
  obtain ⟨-, hk5⟩ | ⟨-, rfl⟩ := ho.k4Busy_step hu hv
  · exact .inl hk5
  · exact .inr rfl

end Waits
end Configure

/-! ## SETUP -/

/-- How much CONFIGURE has left to do, where no wait holds (R137). -/
@[simp] def configureLeft : ConfigureStep → Nat
  | .k1 => 12
  | .k2 => 11
  | .k3 => 10
  | .k4 => 9
  | .k4Busy _ => 8
  | .k4Time _ => 8
  | .k5 => 7
  | .k6 => 6
  | .k7 => 5
  | .k7Wait _ => 4
  | .k8 => 3
  | .k9 => 2
  | .k10 => 1

/-- How much SETUP has left to do before its next request to PLATFORM, or before its end (R212). -/
@[simp] def setupToRequest : SetupStep → Nat
  | .s1 => 3
  | .s2 => 2
  | .s3 _ => 1
  | .s4 _ .m3 => 14
  | .s5 _ k => configureLeft k + 1
  | .s6 _ .a0 => 1
  | .s6 _ (.a5 _ _ _) => 1
  | _ => 0

/-- How much SETUP has left to do: a request granted counts for more than all that can follow it before the next one
(R171, R172, R212). -/
def setupLeft (st : SetupStep) : Nat := 15 * (10 - granted st) + setupToRequest st

/-- How much PLATFORM's exchange has left to do: the asking, the answer (R170). -/
def exchangeLeft : Exchange → Nat
  | .quiet => 2
  | .asked _ => 1
  | .answered _ => 0

/-- The agent SETUP waits for, but for its clock: PLATFORM while a request stands there (R170). -/
def answerer (s : State) : Agent :=
  match s.exchange with
  | .asked _ => .platform
  | _ => .seq

/-- K4 and K7 wait for the clock (R137). -/
def waitsForClock : SetupStep → Bool
  | .s5 _ (.k4Busy _) => true
  | .s5 _ (.k4Time _) => true
  | .s5 _ (.k7Wait _) => true
  | _ => false

theorem setupToRequest_lt (st : SetupStep) : setupToRequest st < 15 := by
  cases st with
  | s1 | s2 | s3 e | s7 e => simp
  | s4 e m => cases m <;> simp
  | s5 e k => cases k <;> simp
  | s6 e a => cases a <;> simp

theorem granted_le (st : SetupStep) : granted st ≤ 10 := by
  cases st with
  | s1 | s2 | s3 e | s5 e k | s7 e => simp [granted]
  | s4 e m =>
    cases m with
    | m1 | m3 => simp [granted]
    | m2 b => cases b <;> simp [granted, blocksBefore, allBlocks]
  | s6 e a => cases a <;> simp [granted]

section Setup
variable {pin n : Int} {st : SetupStep} {s t : State}

/-- A request granted leaves SETUP less to do (R171, R172). -/
theorem setupLeft_granted {l : SetupStep} (h : granted l = granted st + 1) : setupLeft l < setupLeft st := by
  have hle := granted_le l
  have hlt := setupToRequest_lt l
  unfold setupLeft
  omega

/-- So does a micro-step that comes nearer to the next request (R212). -/
theorem setupLeft_moves {l : SetupStep} (hg : granted l = granted st) (h : setupToRequest l < setupToRequest st) :
    setupLeft l < setupLeft st := by
  unfold setupLeft
  omega

/-- A micro-step of SETUP at `st` leaves less to do; or SETUP stays at its place, having asked, or while PLATFORM has still
to answer (R170, R212). -/
def SetupAdvances (st : SetupStep) (s : State) (l : SetupStep) (t : State) : Prop :=
  setupLeft l < setupLeft st
    ∨ l = st ∧ (exchangeLeft t.exchange < exchangeLeft s.exchange ∨ t = s ∧ answerer s = .platform)

/-- At a request SETUP asks, waits for PLATFORM, or goes on with the answer (R170). -/
theorem setupStep_request (hask : asksPlatform (.setup pin n st) = true) :
    (setupStep pin n st s).Meets (SetupAdvances st s) (fun _ => True) (fun _ _ _ => True) := by
  obtain ⟨r, k, hk, hgo⟩ := setupStep_asks s hask
  rw [hk]
  refine Proc.meets_ask (fun hx => .inr ⟨rfl, .inl ?_⟩) (fun r' hx => .inr ⟨rfl, .inr ⟨rfl, ?_⟩⟩) fun a hx => ?_
  · rw [hx]
    exact Nat.lt_succ_self 1
  · rw [answerer, hx]
  · obtain ⟨hgranted, hrefused⟩ := hgo a
    cases ha : a.ok with
    | true =>
      obtain ⟨l, v, hl, -, -, hg, -⟩ := hgranted ha
      rw [hl]
      exact .inl (setupLeft_granted hg)
    | false =>
      obtain ⟨err, v, -, hraise⟩ := hrefused ha
      rw [hraise]
      trivial

/-- A micro-step of SETUP at which it does not wait for the clock advances it (R170, R212). -/
theorem setupStep_advances (hc : waitsForClock st = false) (hr : SetupRuns s s) (hp : s.pc = .setup pin n st) :
    (setupStep pin n st s).Meets (SetupAdvances st s) (fun _ => True) (fun _ _ _ => True) := by
  cases hask : asksPlatform (.setup pin n st) with
  | true => exact setupStep_request hask
  | false =>
    cases st with
    | s1 =>
      simp only [setupStep]
      split
      · exact .inl (setupLeft_moves rfl (by simp))
      · trivial
    | s2 | s3 e =>
      simp only [setupStep]
      split
      · trivial
      · exact .inl (setupLeft_moves rfl (by simp))
    | s4 e m =>
      cases m with
      | m1 | m2 b => cases hask
      | m3 => exact .inl (setupLeft_moves rfl (by simp))
    | s5 e k =>
      rw [hr.configureStep_eq hp]
      cases k with
      | k4Busy | k4Time | k7Wait => cases hc
      | k1 | k2 | k3 | k4 | k5 | k6 | k7 | k8 | k9 | k10 => exact .inl (setupLeft_moves rfl (by simp))
    | s6 e a =>
      cases a with
      | a1 | a2 | a3 | a4 => cases hask
      | a0 =>
        simp only [setupStep, allocateStep]
        split
        · trivial
        · exact .inl (setupLeft_moves rfl (by simp))
      | a5 h b v => exact .inl (setupLeft_moves rfl (by simp))
    | s7 e => trivial

/-- SETUP has ended in Ready with OK, or in Unconfigured with one of its errors (R213). -/
def SetupEnded (s : State) : Prop :=
  s.pc = .idle ∧ (s.life = .ready ∧ s.resp = { status := .ok, detail := .none, payload := [] }
    ∨ s.life = .unconfigured ∧ (s.resp.status, s.resp.detail) ∈ setupErrors)

theorem SetupEnd.ended (h : SetupEnd pin n s) (hp : s.pc = .idle) : SetupEnded s := by
  obtain ⟨hresp, ⟨hlife, -⟩, -⟩ | ⟨herr, -, hlife, -⟩ := h
  · exact ⟨hp, .inl ⟨hlife, hresp⟩⟩
  · exact ⟨hp, .inr ⟨hlife, herr⟩⟩

theorem TimedOut.ended (h : TimedOut s) : SetupEnded s := by
  obtain ⟨hp, hlife, hresp⟩ := h
  refine ⟨hp, .inr ⟨hlife, ?_⟩⟩
  rw [hresp]
  decide

/-- The sequencer's step ends SETUP, or advances it (R212). -/
theorem InOrder.setup_step (h : InOrder s) (hc : waitsForClock st = false) (hp : s.pc = .setup pin n st)
    (ht : microStep s = .next t) :
    SetupEnded t ∨ ∃ l, t.pc = .setup pin n l ∧ SetupAdvances st s l t := by
  obtain ⟨-, -, -, -, hpage, -⟩ := (configOk_iff s.cfg).mp h.1
  have hstep := (setupStep_ends hpage (h.setupRuns.resources hp)).and (setupStep_advances hc h.setupRuns hp)
  obtain ⟨l, u, hu, rfl⟩ | ⟨u, hu, rfl⟩ | ⟨x, d, u, hu, rfl⟩ :=
    resolve_next (((setup_performs pin n).microStep st s hp).symm.trans ht)
  all_goals rw [hu] at hstep
  · obtain ⟨-, hless | ⟨rfl, hasked | ⟨rfl, hstands⟩⟩⟩ := hstep
    · exact .inr ⟨l, rfl, .inl hless⟩
    · exact .inr ⟨l, rfl, .inr ⟨rfl, .inl hasked⟩⟩
    · exact .inr ⟨l, rfl, .inr ⟨rfl, .inr ⟨State.setPc_self hp, hstands⟩⟩⟩
  · exact .inl (hstep.1.ended rfl)
  · exact .inl (hstep.1.ended rfl)

/-- An agent other than the sequencer answers the request that stands at PLATFORM, or leaves the exchange alone and is not
the agent SETUP waits for (R170). -/
theorem agentStep_answers {a : Agent} (ha : a ≠ .seq) (ht : agentStep a s = .next t) :
    exchangeLeft t.exchange < exchangeLeft s.exchange ∨ t.exchange = s.exchange ∧ a ≠ answerer s := by
  by_cases hp : a = .platform
  · subst hp
    cases ht
    obtain ⟨hnone, hs⟩ | ⟨r, ans, as, k, hx, hs⟩ := platformStep_cases s
    · refine .inr ⟨by rw [hs], ?_⟩
      unfold answerer
      split
      · next r hx => exact absurd hx (hnone r)
      · simp
    · rw [hs, hx]
      exact .inl (Nat.lt_succ_self 0)
  · obtain ⟨-, -, -, -, -, hother, -⟩ := agentsOwnTheirState a s t ht
    refine .inr ⟨(hother hp).2 ha, ?_⟩
    unfold answerer
    split <;> assumption

/-- SETUP stands at a place with so much left to do. -/
def SetupHasLeft (pin n : Int) (x : Nat) (s : State) : Prop := ∃ l, s.pc = .setup pin n l ∧ setupLeft l = x

/-- SETUP has ended, or has less than `x` left to do. -/
def SetupNearer (pin n : Int) (x : Nat) (s : State) : Prop := SetupEnded s ∨ ∃ y, y < x ∧ SetupHasLeft pin n y s

theorem SetupNearer.moved {x : Nat} {l : SetupStep} (hp : s.pc = .setup pin n l) (h : setupLeft l < x) :
    SetupNearer pin n x s := .inr ⟨_, h, l, hp, rfl⟩

end Setup

section Ends
variable {run : Nat → State} {moved : Nat → Agent} {pin n : Int} {st : SetupStep} {g : Nat} (h : OrderedRun run moved)
  (hplatform : WeaklyFair .platform run moved)
include h hplatform

/-- Where it does not wait for the clock SETUP goes on: PLATFORM answers, and the sequencer moves (R170, R323). -/
theorem OrderedRun.setup_goes_on (hc : waitsForClock st = false) :
    LeadsTo run (fun u => u.pc = .setup pin n st) (SetupNearer pin n (setupLeft st)) := by
  obtain ⟨-, -, -, -, hseq⟩ := h.fair
  refine fun m hm => h.progress (P := fun x u => u.pc = .setup pin n st ∧ exchangeLeft u.exchange = x)
    (Q := SetupNearer pin n (setupLeft st)) (helpful := answerer) ?_ ?_ ?_ _ m ⟨hm, rfl⟩
  · rintro x u -
    unfold answerer
    split <;> assumption
  · rintro x u - ⟨hp, -⟩
    unfold answerer
    split
    · next r hx => simp [agentEnabled, hx]
    · simp [agentEnabled, hp]
  · rintro x a u v ho ⟨hp, rfl⟩ hv
    by_cases ha : a = .seq
    · subst ha
      obtain hend | ⟨l, hl, hless | ⟨rfl, hasked | ⟨rfl, hstands⟩⟩⟩ := ho.setup_step hc hp hv
      · exact .inl (.inl hend)
      · exact .inl (.moved hl hless)
      · exact .inr (.inl ⟨_, hasked, hl, rfl⟩)
      · exact .inr (.inr ⟨⟨hl, rfl⟩, rfl, by rw [hstands]; simp⟩)
    · have hpc := (agentStep_pc ha hv).trans hp
      obtain hless | ⟨hsame, hne⟩ := agentStep_answers ha hv
      · exact .inr (.inl ⟨_, hless, hpc, rfl⟩)
      · exact .inr (.inr ⟨⟨hpc, by rw [hsame]⟩, by rw [answerer, hsame]; rfl, hne⟩)

/-- In a fair run with PLATFORM fair and the sequencer prompt SETUP ends (R213, R323; log 23). -/
theorem OrderedRun.setup_ends (hprompt : PromptSeq g run moved) (hsettle : (run 0).cfg.settleUs + g ≤ 2 ^ 32)
    (hbusy : (run 0).cfg.busyTimeoutUs + 2 * g ≤ 2 ^ 32) :
    LeadsTo run (fun u => ∃ st, u.pc = .setup pin n st) SetupEnded := by
  refine fun m ⟨st, hm⟩ => LeadsTo.induct (P := SetupHasLeft pin n) ?_ _ m ⟨st, hm, rfl⟩
  rintro x m ⟨st, hm, rfl⟩
  have polls (e : PinEntry) (t0 : Word) : LeadsTo run (PollsBusy pin n e t0)
      (SetupNearer pin n (setupLeft (.s5 e (.k4Busy t0)))) :=
    (h.stopsPolling hprompt hbusy t0).trans
      (.or (.of_imp fun u hu => .moved hu (setupLeft_moves rfl (by simp))) (.of_imp fun u hu => .inl hu.ended))
  have settles (e : PinEntry) (t1 : Word) : LeadsTo run (fun u => u.pc = .setup pin n (.s5 e (.k7Wait t1)))
      (SetupNearer pin n (setupLeft (.s5 e (.k7Wait t1)))) :=
    (h.settles hprompt hsettle t1).trans (.of_imp fun u hu => .moved hu (setupLeft_moves rfl (by simp)))
  cases hc : waitsForClock st with
  | false => exact h.setup_goes_on hplatform hc m hm
  | true =>
    match st, hc with
    | .s5 e (.k4Busy t0), _ => exact polls e t0 m (.inl hm)
    | .s5 e (.k4Time t0), _ => exact polls e t0 m (.inr hm)
    | .s5 e (.k7Wait t1), _ => exact settles e t1 m hm

end Ends

/-! ## The waits of a command that ends -/

section Waits
variable {α : Type} {step : α → State → Proc α} {wrap : α → Pc} {finish : State → State} {run : Nat → State}
  {moved : Nat → Agent} {place : WaitStep → α} {after : α} {w : WaitStep}

/-- A WAIT_IDLE that a procedure calls holds, or goes on to what follows it (R181, R182). -/
theorem waitStep_leaves {s : State} : ((waitStep w s).call place (.goto after)).Meets
    (fun l _ => (∃ w, l = place w) ∨ l = after) (fun _ => False) (fun _ _ _ => False) :=
  Proc.meets_call ((waitStep_meets w s).mono (fun w _ _ => .inl ⟨w, rfl⟩) (fun _ _ => .inr rfl) fun _ _ _ hno => hno)

/-- The WAIT_IDLE of a procedure that ends, ends (R182). -/
theorem Performs.wait_ends (h : Performs step wrap finish) (hrun : OrderedRun run moved)
    (hstep : ∀ w u, InOrder u → u.pc = wrap (place w) → step (place w) u = (waitStep w u).call place (.goto after))
    (hp : (run 0).pc = wrap (place w)) {n : Nat} (hn : (run n).pc = .idle) : ∃ m, (run m).pc = wrap after := by
  refine exists_of_unless (P := fun k => ∃ w, (run k).pc = wrap (place w)) (fun k ⟨w, hk⟩ => ?_) ⟨w, hp⟩ (n := n) ?_
  · by_cases hseq : moved k = .seq
    · refine resolve_meets (P := fun v => (∃ w, v.pc = wrap (place w)) ∨ v.pc = wrap after)
        ((h.microStep _ _ hk).symm.trans (hrun.microStep hseq)) ?_
      rw [hstep w _ (hrun.order k) hk]
      refine waitStep_leaves.mono ?_ (fun _ hno => hno.elim) fun _ _ _ hno => hno.elim
      rintro l u (⟨w, rfl⟩ | rfl)
      · exact .inl ⟨w, rfl⟩
      · exact .inr rfl
    · exact .inl ⟨w, (agentStep_pc hseq (hrun.step k)).trans hk⟩
  · rintro ⟨w, hw⟩
    exact h.busy _ (hw.symm.trans hn)

end Waits

/-- Only the CLK agent and the sequencer write the clock manager (R35, R45). -/
theorem agentStep_cm {a : Agent} {s t : State} (hseq : a ≠ .seq) (hclk : a ≠ .clk) (ht : agentStep a s = .next t) :
    t.cm = s.cm := by
  cases a with
  | seq => exact absurd rfl hseq
  | clk => exact absurd rfl hclk
  | dma => rw [dmaStep_frame ht]
  | pwm => cases ht; obtain ⟨-, hs⟩ | ⟨-, rest, m, -, -, hs⟩ := pwmStep_cases s <;> rw [hs]
  | timer => cases ht; rfl
  | host => cases ht; obtain ⟨acts, n, input, term, hs, -⟩ := hostStep_cases s; rw [hs]
  | platform => cases ht; obtain ⟨-, hs⟩ | ⟨r, ans, as, n, -, hs⟩ := platformStep_cases s <;> rw [hs]

/-- With the clock busy and no step of the CLK agent, K4 can end only with its timeout (R139). -/
theorem OrderedRun.times_out {run : Nat → State} {moved : Nat → Agent} {pin n : Int} {e : PinEntry} {t0 : Word}
    (h : OrderedRun run moved) (hp : PollsBusy pin n e t0 (run 0)) (hb : (run 0).cm.busy = true)
    (hclk : ∀ k, moved k ≠ .clk) {m : Nat} (hm : ¬ PollsBusy pin n e t0 (run m)) : ∃ k, TimedOut (run k) := by
  refine exists_of_unless (P := fun k => PollsBusy pin n e t0 (run k) ∧ (run k).cm.busy = true) (fun k hk => ?_)
    ⟨hp, hb⟩ (n := m) fun hpm => hm hpm.1
  obtain ⟨hpk, hbk⟩ := hk
  by_cases hseq : moved k = .seq
  · obtain hpk | hpk := hpk
    · obtain ⟨hclear, -⟩ | ⟨-, hnext⟩ := (h.order k).k4Busy_step hpk (h.microStep hseq)
      · rw [hbk] at hclear
        cases hclear
      · rw [hnext]
        exact .inl ⟨.inr rfl, hbk⟩
    · obtain hout | ⟨hnext, -⟩ := (h.order k).k4Time_step hpk (h.microStep hseq)
      · exact .inr hout
      · rw [hnext]
        exact .inl ⟨.inl rfl, hbk⟩
  · refine .inl ⟨?_, (agentStep_cm hseq (hclk k) (h.step k)).symm ▸ hbk⟩
    rwa [PollsBusy, agentStep_pc hseq (h.step k)]

/-! ## Commands and waits end in fair runs -/

/-- Settles O41: each command by the lemma that says how it ends in a fair run. -/
theorem commandsEndInFairRuns : Obligations.CommandsEndInFairRuns := by
  rintro s run moved h0 rfl hfair hsetup
  have h := hfair.ordered h0
  cases hp : (run 0).pc with
  | idle => exact ⟨0, hp, h0, by simp⟩
  | send e =>
    obtain ⟨n, -, u, hlife, hn⟩ := h.send_ends 0 ⟨e, hp⟩
    exact ⟨n, by rw [hn]; rfl, h.order n, fun _ => by rw [hn]; exact ⟨hlife, rfl⟩, by simp⟩
  | clearAll c =>
    obtain ⟨n, -, u, hlife, hn⟩ := h.clear_ends 0 ⟨c, hp⟩
    exact ⟨n, by rw [hn]; rfl, h.order n, fun _ => by rw [hn]; exact ⟨hlife, rfl⟩, by simp⟩
  | cleanup c =>
    obtain ⟨n, -, u, hlife, hn⟩ := cleanup_performs.cleanup_ends h (fun _ => rfl) (fun _ _ => heldMatch_cleanup) 0 ⟨c, hp⟩
    exact ⟨n, by rw [hn]; rfl, h.order n, by simp, fun _ => by rw [hn]; exact ⟨hlife, rfl⟩, by simp⟩
  | terminate c =>
    obtain ⟨n, -, u, -, hn⟩ :=
      terminate_performs.cleanup_ends h (fun _ => rfl) (fun _ _ => heldMatch_terminate) 0 ⟨c, hp⟩
    exact ⟨n, by rw [hn]; rfl, h.order n, by simp, by simp, fun _ => by rw [hn]; rfl, by simp⟩
  | setup pin m st =>
    obtain ⟨hplatform, g, hprompt, hsettle, hbusy⟩ := hsetup ⟨pin, m, st, hp⟩
    obtain ⟨n, -, hpn, hend⟩ := h.setup_ends hplatform hprompt hsettle hbusy 0 ⟨st, hp⟩
    exact ⟨n, hpn, h.order n, by simp, by simp, by simp, fun _ => hend⟩

/-- Settles O42: WAIT_IDLE ends because SEND and CLEANUP end and pass it in order; K7 and K4 because the time runs out. -/
theorem waitsEndInFairRuns : Obligations.WaitsEndInFairRuns := by
  rintro s run moved h0 rfl hfair
  have h := hfair.ordered h0
  refine ⟨fun w => ⟨fun hp => ?_, fun hp => ?_, fun hp => ?_⟩, fun g pin m e hprompt => ⟨fun t1 hroom hp => ?_,
    fun t0 hroom hp => ⟨?_, fun hb hclk => ?_⟩⟩⟩
  · obtain ⟨n, -, u, -, hn⟩ := h.send_ends 0 ⟨_, hp⟩
    exact send_performs.wait_ends h (place := .e2) (after := .e3 .x1) (fun _ _ _ _ => rfl) hp (by rw [hn]; rfl)
  · obtain ⟨n, -, u, -, hn⟩ := h.send_ends 0 ⟨_, hp⟩
    exact ⟨n, by rw [hn]; rfl⟩
  · obtain ⟨n, -, u, -, hn⟩ := cleanup_performs.cleanup_ends h (fun _ => rfl) (fun _ _ => heldMatch_cleanup) 0 ⟨_, hp⟩
    refine cleanup_performs.wait_ends h (place := fun w => .c2 (.l1 w)) (after := .c2 .l2) (fun w u ho hu => ?_)
      hp (by rw [hn]; rfl)
    obtain ⟨-, hm, ⟨r, hr, -⟩, -⟩ := heldMatch_cleanup hu ho.2.1
    exact cleanupStep_l1 (by rw [hr]; rfl) hm
  · obtain ⟨n, -, hn⟩ := h.settles hprompt hroom t1 0 hp
    exact ⟨n, hn⟩
  · obtain ⟨n, -, hn | hn⟩ := h.stopsPolling hprompt hroom t0 0 (.inl hp)
    · exact .inl ⟨n, hn⟩
    · exact .inr ⟨n, hn⟩
  · obtain ⟨n, -, hn⟩ := h.stopsPolling hprompt hroom t0 0 (.inl hp)
    refine h.times_out (.inl hp) hb hclk (m := n) ?_
    rintro (hpn | hpn) <;> obtain hn | ⟨hn, -⟩ := hn <;> cases hpn.symm.trans hn

end Sys2Proof.Machine
